-- ==== Sys2Proof/Word.lean ====
section
/-! DEFINITION. The data the core computes on: bytes, 32-bit words, the 5-byte Block and the 10-byte Challenge
(00_scope R8, R12). -/

namespace Sys2Proof

/-- One byte. -/
abbrev Byte := BitVec 8

/-- A 32-bit word: a command word or a word register (30_encoding R91, 20_memory R69). -/
abbrev Word := BitVec 32

/-- A byte address of the 16-bit host address space (20_memory R61). -/
abbrev HostAddr := BitVec 16

/-- A variant index 0..31 (30_encoding R95). -/
abbrev Variant := BitVec 5

/-- A Block, "fixed 5-byte value": `b0` is byte 0, the first byte (00_scope R8, R12). -/
structure Block where
  b0 : Byte
  b1 : Byte
  b2 : Byte
  b3 : Byte
  b4 : Byte
deriving DecidableEq, Repr, Inhabited

/-- A Challenge, "fixed 10-byte value": bytes 0..4 are `value`, bytes 5..9 are `seed` (00_scope R8, R12;
10_state R23 names the halves). `B || D` of two Blocks is `⟨B, D⟩`. -/
structure Challenge where
  value : Block
  seed : Block
deriving DecidableEq, Repr, Inhabited

end Sys2Proof
end

