-- ==== Sys2Proof/Syntax.lean ====
section
/-! DEFINITION. The commands of the core, one constructor per row of spec/opcode_table.json (30_encoding R97). -/

namespace Sys2Proof

/-- The index field of a `BR` operand: 0..7, all legal (30_encoding R93). -/
abbrev BrIndex := BitVec 3

/-- The index field of a `CR` operand; only 0 and 1 are legal (30_encoding R93). -/
abbrev CrField := BitVec 3

/-- The unsigned immediate field (30_encoding R94). -/
abbrev Imm := BitVec 11

/-- A command with its operand fields, named as 30_encoding R104 names them. -/
inductive Instr where
  | nop
  | gen (rs : BrIndex) (len : Imm)
  | bc (rd : BrIndex) (cs : CrField) (var : Variant)
  | k1t (rd : BrIndex) (cs : CrField) (var : Variant)
  | k2t (rd : BrIndex) (cs : CrField) (var : Variant)
  | bkt (rd : BrIndex) (cs : CrField) (var : Variant)
  | findv (cs : CrField) (ra : BrIndex)
  | initch (cd : CrField)
  | cat (cd : CrField) (ra : BrIndex) (rb : BrIndex)
  | mix (rd : BrIndex) (rs : BrIndex) (inv : Bool)
  | lddk (rd : BrIndex) (off : Imm)
  | dtk (rd : BrIndex) (rs : BrIndex)
  | xdk (rs : BrIndex)
  | xbk (rd : BrIndex) (rs : BrIndex)
  | dscr (rs : BrIndex) (offset : Imm)
  | auth (mode : Imm)
  | acq
  | descr (offset : Imm)
  | clrctx
deriving DecidableEq, Repr

end Sys2Proof
end

