-- ==== Sys2Proof/WellFormed.lean ====
section
/-! DEFINITION. Which commands a legal command word can stand for: the operand ranges of 30_encoding R93 and R94. -/

namespace Sys2Proof

/-- A `cs` or `cd` field is 0 or 1 (30_encoding R93). -/
def CrField.ok (c : CrField) : Bool := c.toNat ≤ 1

/-- GEN's length is 1..32 (30_encoding R94). -/
def Imm.isLength (imm : Imm) : Bool := 1 ≤ imm.toNat && imm.toNat ≤ 32

/-- LDDK's offset is 0..2043 (30_encoding R94). -/
def Imm.isDiskKeyOffset (imm : Imm) : Bool := imm.toNat ≤ 2043

/-- AUTH's mode is 0 or 1 (30_encoding R94). -/
def Imm.isMode (imm : Imm) : Bool := imm.toNat ≤ 1

/-- The command's operands are in their legal ranges (30_encoding R93, R94, R98). -/
def Instr.wellFormed : Instr → Bool
  | .nop => true
  | .gen _ len => len.isLength
  | .bc _ cs _ => cs.ok
  | .k1t _ cs _ => cs.ok
  | .k2t _ cs _ => cs.ok
  | .bkt _ cs _ => cs.ok
  | .findv cs _ => cs.ok
  | .initch cd => cd.ok
  | .cat cd _ _ => cd.ok
  | .mix _ _ _ => true
  | .lddk _ off => off.isDiskKeyOffset
  | .dtk _ _ => true
  | .xdk _ => true
  | .xbk _ _ => true
  | .dscr _ _ => true
  | .auth mode => mode.isMode
  | .acq => true
  | .descr _ => true
  | .clrctx => true

end Sys2Proof
end

