-- ==== Sys2Proof/Decode.lean ====
section
/-! DEFINITION. The command word: its fields (30_encoding R91, R92), the decoder, total and rejecting by name (R97,
R98), and after it the encoder. -/

namespace Sys2Proof

/-- Why a word is no command (30_encoding R98). -/
inductive DecodeError where
  /-- OP is 0x0F or 0x14..0x3F. -/
  | reservedOpcode
  /-- A field that R97 marks `0` is nonzero. -/
  | nonzeroField
  /-- A `cs` or `cd` field is 2..7. -/
  | challengeIndex
  /-- IMM is outside the legal range of R94. -/
  | immediateRange
deriving DecidableEq, Repr

/-- The fields of a command word (30_encoding R91). -/
structure Fields where
  op : BitVec 6
  var : Variant
  rd : BitVec 3
  rs : BitVec 3
  rt : BitVec 3
  inv : BitVec 1
  imm : Imm
deriving DecidableEq, Repr

/-- Field extraction (30_encoding R92). -/
def fieldsOf (w : Word) : Fields where
  op := w.extractLsb' 26 6
  var := w.extractLsb' 21 5
  rd := w.extractLsb' 18 3
  rs := w.extractLsb' 15 3
  rt := w.extractLsb' 12 3
  inv := w.extractLsb' 11 1
  imm := w.extractLsb' 0 11

/-- The word with given fields, OP at the top (30_encoding R91). -/
def wordOf (f : Fields) : Word :=
  f.op ++ f.var ++ f.rd ++ f.rs ++ f.rt ++ f.inv ++ f.imm

/-- Accept `i` if the fields that must be zero are, and then the `CR` field and the immediate are legal; else
reject by the name of the first check that fails. -/
def checked (zeros challenge immediate : Bool) (i : Instr) : Except DecodeError Instr :=
  if !zeros then .error .nonzeroField
  else if !challenge then .error .challengeIndex
  else if !immediate then .error .immediateRange
  else .ok i

/-- The opcode map (30_encoding R97), one line per opcode, with the must-be-zero fields of its row. -/
def decodeFields (f : Fields) : Except DecodeError Instr :=
  match f.op.toNat with
  | 0x00 => checked (f.var == 0 && f.rd == 0 && f.rs == 0 && f.rt == 0 && f.inv == 0 && f.imm == 0) true true .nop
  | 0x01 => checked (f.var == 0 && f.rd == 0 && f.rt == 0 && f.inv == 0) true f.imm.isLength (.gen f.rs f.imm)
  | 0x02 => checked (f.rt == 0 && f.inv == 0 && f.imm == 0) (CrField.ok f.rs) true (.bc f.rd f.rs f.var)
  | 0x03 => checked (f.rt == 0 && f.inv == 0 && f.imm == 0) (CrField.ok f.rs) true (.k1t f.rd f.rs f.var)
  | 0x04 => checked (f.rt == 0 && f.inv == 0 && f.imm == 0) (CrField.ok f.rs) true (.k2t f.rd f.rs f.var)
  | 0x05 => checked (f.rt == 0 && f.inv == 0 && f.imm == 0) (CrField.ok f.rs) true (.bkt f.rd f.rs f.var)
  | 0x06 => checked (f.var == 0 && f.rd == 0 && f.inv == 0 && f.imm == 0) (CrField.ok f.rs) true (.findv f.rs f.rt)
  | 0x07 => checked (f.var == 0 && f.rs == 0 && f.rt == 0 && f.inv == 0 && f.imm == 0) (CrField.ok f.rd) true (.initch f.rd)
  | 0x08 => checked (f.var == 0 && f.inv == 0 && f.imm == 0) (CrField.ok f.rd) true (.cat f.rd f.rs f.rt)
  | 0x09 => checked (f.var == 0 && f.rt == 0 && f.imm == 0) true true (.mix f.rd f.rs (f.inv == 1))
  | 0x0A => checked (f.var == 0 && f.rs == 0 && f.rt == 0 && f.inv == 0) true f.imm.isDiskKeyOffset (.lddk f.rd f.imm)
  | 0x0B => checked (f.var == 0 && f.rt == 0 && f.inv == 0 && f.imm == 0) true true (.dtk f.rd f.rs)
  | 0x0C => checked (f.var == 0 && f.rd == 0 && f.rt == 0 && f.inv == 0 && f.imm == 0) true true (.xdk f.rs)
  | 0x0D => checked (f.var == 0 && f.rt == 0 && f.inv == 0 && f.imm == 0) true true (.xbk f.rd f.rs)
  | 0x0E => checked (f.var == 0 && f.rd == 0 && f.rt == 0 && f.inv == 0) true true (.dscr f.rs f.imm)
  | 0x10 => checked (f.var == 0 && f.rd == 0 && f.rs == 0 && f.rt == 0 && f.inv == 0) true f.imm.isMode (.auth f.imm)
  | 0x11 => checked (f.var == 0 && f.rd == 0 && f.rs == 0 && f.rt == 0 && f.inv == 0 && f.imm == 0) true true .acq
  | 0x12 => checked (f.var == 0 && f.rd == 0 && f.rs == 0 && f.rt == 0 && f.inv == 0) true true (.descr f.imm)
  | 0x13 => checked (f.var == 0 && f.rd == 0 && f.rs == 0 && f.rt == 0 && f.inv == 0 && f.imm == 0) true true .clrctx
  | _ => .error .reservedOpcode

/-- The command a word stands for, or why it is illegal (30_encoding R97, R98). Every command is one 32-bit word and
no mode changes decoding (R100). -/
def decode (w : Word) : Except DecodeError Instr := decodeFields (fieldsOf w)

/-- The instruction the decoder reads from the low `nbits` bits of `w`, every bit above them 0. The command word is
one 32-bit datum of one 4-byte bus write (30_encoding R100), so it is not laid out as bytes. -/
def decodeTableWord (nbits w : Nat) : Option Instr :=
  match decode (BitVec.ofNat 32 (w % 2 ^ nbits)) with
  | .ok i => some i
  | .error _ => none

/-- All fields zero but the opcode: what R97's rows start from. -/
def Fields.ofOp (op : BitVec 6) : Fields := ⟨op, 0, 0, 0, 0, 0, 0⟩

/-- The fields that 30_encoding R97 and R104 give a command. -/
def encodeFields : Instr → Fields
  | .nop => .ofOp 0x00
  | .gen rs len => { Fields.ofOp 0x01 with rs := rs, imm := len }
  | .bc rd cs var => { Fields.ofOp 0x02 with rd := rd, rs := cs, var := var }
  | .k1t rd cs var => { Fields.ofOp 0x03 with rd := rd, rs := cs, var := var }
  | .k2t rd cs var => { Fields.ofOp 0x04 with rd := rd, rs := cs, var := var }
  | .bkt rd cs var => { Fields.ofOp 0x05 with rd := rd, rs := cs, var := var }
  | .findv cs ra => { Fields.ofOp 0x06 with rs := cs, rt := ra }
  | .initch cd => { Fields.ofOp 0x07 with rd := cd }
  | .cat cd ra rb => { Fields.ofOp 0x08 with rd := cd, rs := ra, rt := rb }
  | .mix rd rs inv => { Fields.ofOp 0x09 with rd := rd, rs := rs, inv := BitVec.ofBool inv }
  | .lddk rd off => { Fields.ofOp 0x0A with rd := rd, imm := off }
  | .dtk rd rs => { Fields.ofOp 0x0B with rd := rd, rs := rs }
  | .xdk rs => { Fields.ofOp 0x0C with rs := rs }
  | .xbk rd rs => { Fields.ofOp 0x0D with rd := rd, rs := rs }
  | .dscr rs offset => { Fields.ofOp 0x0E with rs := rs, imm := offset }
  | .auth mode => { Fields.ofOp 0x10 with imm := mode }
  | .acq => .ofOp 0x11
  | .descr offset => { Fields.ofOp 0x12 with imm := offset }
  | .clrctx => .ofOp 0x13

/-- The word of a command (30_encoding R91, R97). -/
def encode (i : Instr) : Word := wordOf (encodeFields i)

end Sys2Proof
end

