-- ==== Sys2Proof/Config.lean ====
section
/-! DEFINITION. What is fixed for a core and given by no rule: the configuration parameters of 00_scope R9 and the
free values. Nothing in Lean can evaluate `Config.platform` or `Config.powerOnByte`, so a theorem holds whatever they are. -/

namespace Sys2Proof

/-- A player key: "{offset: integer byte-offset into the 2048-byte disk-key buffer, key: 5-byte value}"
(00_scope R17). The offset is 0..2043, so that `offset + 5 <= 2048` (R10). -/
structure PlayerKey where
  offset : Fin 2044
  key : Block
deriving DecidableEq, Repr, Inhabited

/-- The configuration parameters of 00_scope R9. The field types say what R10 and 93_implementation_defined U6
demand, so an ill-formed configuration cannot be written down. -/
structure Config where
  /-- BlockCipher rounds 3 and 4. -/
  bct0 : Byte → Byte
  /-- BlockCipher index remap. -/
  bct1 : Byte → Byte
  /-- BlockCipher reseed, `cse`, remap and output. -/
  bct2 : Byte → Byte
  /-- BlockCipher round output. -/
  bct3 : Byte → Byte
  /-- BlockCipher `cse`. -/
  variants : Variant → Byte
  /-- BlockCipher reseed. -/
  secret : Block
  /-- Key2Transform's variant remap; entries 0..31 (R10). -/
  permv1 : Variant → Variant
  /-- BusKeyTransform's variant remap; entries 0..31 (R10). -/
  permv2 : Variant → Variant
  /-- The mix fold and the sector byte substitution. -/
  tab1 : Byte → Byte
  /-- The LFSR-pair step, indexed by `hi`. -/
  tab2 : Byte → Byte
  /-- The LFSR-pair step, indexed by the 9-bit `lo`. -/
  tab3 : BitVec 9 → Byte
  /-- The 10 player keys, in table order. -/
  playerKeys : Fin 10 → PlayerKey
  /-- How many retries follow the first session-grant attempt: `GRANT_MAX_ATTEMPTS` less one (92 D18), so that
  `GRANT_MAX_ATTEMPTS` is 1..255 (93 U6). -/
  grantRetries : Fin 255
  /-- `CSS_BASE`, where the platform puts the host window. Not observable inside the core (93 U8). -/
  cssBase : Nat
deriving Inhabited

/-- The configuration of the core that runs: a parameter, any value (93 U5, U7, U8). -/
opaque Config.platform : Config

/-- FREE VALUE. What the byte of KS, SEC or DK at a host address holds after a reset, until the host or a command
writes it: "any value, chosen independently per byte at reset" (93 U1). The first argument counts the resets. -/
opaque Config.powerOnByte : Nat → Nat → Byte

end Sys2Proof
end

