-- ==== Sys2Proof/Machine/State.lean ====
section
/-! DEFINITION. The state of the core as plain data (10_state R21), with the model's own input and output lists beside
it, the reasons a step can stop, and the state after reset (10_state R40). -/

namespace Sys2Proof.Machine

/-- The FSM states (10_state R32, 44_authentication R201). The values 10..255 of the register are never entered. -/
inductive FsmState where
  | idle
  | req
  | sendch
  | recvk1
  | resv
  | recvch
  | sendk2
  | busk
  | fetch
  | dtks
deriving DecidableEq, Repr

/-- `FLAGS.MODE`: the acquisition mode of the current or last session (10_state R32). -/
inductive SessionMode where
  | disk
  | title
deriving DecidableEq, Repr

/-- `FLAGS.ACQPH`: the ACQ phase (10_state R32). -/
inductive AcqPhase where
  /-- 0: no ACQ in progress. -/
  | inactive
  /-- 1: the disk-key session. -/
  | diskSession
  /-- 2: the title-key session. -/
  | titleSession
  /-- 3: the title-key decryption. -/
  | decryption
deriving DecidableEq, Repr

/-- The errors a command can end with (60_exceptions R241). -/
inductive CoreError where
  | channelUnavailable
  | sessionGrantFailure
  | variantResolutionFailure
  | driveAuthFailure
  | structureReadFailure
  | noMatchingPlayerKey
  | illegalCommand
  | sectorBounds
  | aborted
deriving DecidableEq, Repr

/-- The stored fields of STATUS (10_state R28). ENC and FSMST are copies of `Context.enc` and `Context.fsm`. -/
structure Status where
  busy : Bool
  done : Bool
  err : Bool
  anom : Bool
  busyWr : Bool
  hostErr : Bool
  errCode : Byte
  result : Byte
deriving DecidableEq, Repr

/-- The context registers, the document's `CssContext` (10_state R31, R32). -/
structure Context where
  /-- The host challenge sent to the drive. -/
  chal : Challenge
  /-- The challenge received from the drive. -/
  dchal : Challenge
  /-- "drive-reported key1". -/
  key1 : Block
  /-- "host-computed key2". -/
  key2 : Block
  /-- The bus key. -/
  keycheck : Block
  /-- The obfuscated title key after the bus-key XOR. -/
  etk : Block
  /-- "the title key". -/
  titleKey : Block
  /-- The resolved variant; `none` is the unresolved sentinel, read as 0xFF. -/
  variant : Option Variant
  /-- Session-grant attempts made in the current session. -/
  attempts : Byte
  fsm : FsmState
  /-- `FLAGS.ENC`. -/
  enc : Bool
  /-- `FLAGS.MODE`. -/
  mode : SessionMode
  /-- `FLAGS.ACQPH`. -/
  acqPhase : AcqPhase
  /-- The session id of the current or last session. -/
  sid : Word
deriving DecidableEq, Repr

/-- What the collaborator answers to a call (44_authentication R203): every answer of every call's answer type. -/
inductive Answer where
  /-- `openSession`: no authentication channel. -/
  | noChannel
  /-- `openSession`: the grant failed. -/
  | grantFail
  /-- `openSession`: a session id. -/
  | sid (s : Word)
  /-- `sendChallenge`: the only answer. -/
  | ack
  /-- `receiveKey1`: 5 bytes. -/
  | block (k : Block)
  /-- `receiveChallenge`: 10 bytes. -/
  | challenge (c : Challenge)
  /-- `sendKey2`: accepted. -/
  | ok
  /-- `sendKey2`: rejected. -/
  | authFailure
  /-- `readDiskKeyStructure`: 2048 bytes. -/
  | diskData (d : Vector Byte 2048)
  /-- `readTitleKeyStructure`: 5 bytes. -/
  | titleData (d : Block)
  /-- Either structure read: failed. -/
  | error
deriving DecidableEq, Repr

/-- The calls of the collaborator interface that have an answer, with their arguments (44_authentication R203). -/
inductive Call where
  | openSession
  | sendChallenge (sid : Word) (chal : Challenge)
  | receiveKey1 (sid : Word)
  | receiveChallenge (sid : Word)
  | sendKey2 (sid : Word) (key2 : Block)
  | readDiskKeyStructure (sid : Word)
  | readTitleKeyStructure (sid : Word) (lba : Word)
deriving DecidableEq, Repr

/-- What the world outside the core does next: the events of the one total order of 20_memory R73. -/
inductive Input where
  /-- `HostRead(addr, n)` (20_memory R63). -/
  | hostRead (addr : HostAddr) (n : Nat)
  /-- `HostWrite(addr, n, v)` (20_memory R63); with `n = 1` the byte is the low byte of `v`. -/
  | hostWrite (addr : HostAddr) (n : Nat) (v : Word)
  /-- The collaborator answers the pending call (44_authentication R202). -/
  | answer (a : Answer)
  /-- The collaborator answers a call the core has withdrawn (93 U9). -/
  | lateAnswer (a : Answer)
  /-- The core's own turn: an internal FSM step, if one is enabled (44_authentication R202, R227). -/
  | coreTurn
  /-- The power-on or platform reset of the core (70_reset_and_hazards R271, R272). -/
  | reset
deriving DecidableEq, Repr

/-- What leaves the core. -/
inductive Output where
  /-- The value a host read returned. -/
  | readData (v : Word)
  /-- A call the core made, with its arguments (20_memory R78). -/
  | call (c : Call)
  /-- The notification `invalidateSession(SID)` (44_authentication R206, R225). -/
  | invalidateSession (sid : Word)
deriving DecidableEq, Repr

/-- The core's memory: the buffers SEC, DK and KS at their host addresses (10_state R33). `cells` lists the bytes
written since the last reset. An unlisted byte has no value the spec gives; `Memory.read` says what reading it gives. -/
structure Memory where
  /-- The model's own: how many resets came after the first one. It selects the free power-on contents (93 U1). -/
  resets : Nat
  cells : List Host.Cell
deriving DecidableEq, Repr

/-- The first host address above the buffers (10_state R33). -/
def bufferEnd : Nat := 0x1020

/-- The canonical form: addresses strictly rising, all of them buffer addresses. -/
abbrev Memory.wf (m : Memory) : Prop :=
  m.cells.Pairwise (fun c d => c.1 < d.1) ∧ ∀ c ∈ m.cells, c.1 < bufferEnd

/-- The state of the core (10_state R21) and the model's own queues. -/
structure State where
  /-- `BR[0..7]` (10_state R22). -/
  br : Vector Block 8
  /-- `CR[0..1]` (10_state R23). -/
  cr : Vector Challenge 2
  /-- `SEC`, `DK` and `KS` (10_state R24-R26). -/
  mem : Memory
  /-- `STATUS` (10_state R28). -/
  status : Status
  /-- `LBA` (10_state R29). -/
  lba : Word
  /-- The context registers (10_state R31, R32). -/
  ctx : Context
  /-- The model's own: what the world outside does next, the next event first. -/
  inputs : List Input
  /-- The model's own: what left the core, the oldest first. -/
  outputs : List Output
deriving DecidableEq, Repr

/-- Why the machine stops. Both cases are register combinations that the FSM's order never produces, in which the
rule of the step would need a value the spec does not define; no run from reset meets one. -/
inductive Fault where
  /-- RECVCH or BUSK would use `VARIANT` while it holds no variant (44_authentication R210, R212, R231). Raised by
  the FSM steps of those states. Safe: the model stops where the spec gives no step. -/
  | variantUnresolved
  /-- A session would end while `ACQPH` says that ACQ is decrypting, a phase R216 gives no case for. Raised by
  `sessionEnd`. Safe: the model stops where the spec gives no step. -/
  | noSessionToEnd
deriving DecidableEq, Repr

/-- Why the model gives an instruction no meaning. -/
inductive Refusal where
  /-- The instruction of that mnemonic has no meaning in the model yet. Raised by `exec` only. Safe. No arm of `exec`
  raises it now. -/
  | notModelled (mnemonic : String)
deriving DecidableEq, Repr

/-- All bytes 0x00. -/
def zeroBlock : Block := ⟨0, 0, 0, 0, 0⟩

/-- All bytes 0x00. -/
def zeroChallenge : Challenge := ⟨zeroBlock, zeroBlock⟩

/-- `STATUS = 0x00000000` but for the copies it shows (10_state R40). -/
def Status.reset : Status := ⟨false, false, false, false, false, false, 0, 0⟩

/-- The context registers after reset (10_state R31, R40). -/
def Context.reset : Context where
  chal := zeroChallenge
  dchal := zeroChallenge
  key1 := zeroBlock
  key2 := zeroBlock
  keycheck := zeroBlock
  etk := zeroBlock
  titleKey := zeroBlock
  variant := none
  attempts := 0
  fsm := .idle
  enc := false
  mode := .disk
  acqPhase := .inactive
  sid := 0

/-- The core right after reset (10_state R40, 70_reset_and_hazards R271-R274). -/
def State.reset : State where
  br := Vector.replicate 8 zeroBlock
  cr := Vector.replicate 2 zeroChallenge
  mem := ⟨0, []⟩
  status := Status.reset
  lba := 0
  ctx := Context.reset
  inputs := []
  outputs := []

end Sys2Proof.Machine
end

