-- ==== Sys2Proof/Machine/Operands.lean ====
section
/-! DEFINITION. Operand forms: the bytes of Blocks and Challenges by index (00_scope R12), and what the index and
immediate fields of a command denote (30_encoding R93-R95). -/

namespace Sys2Proof

/-- Byte `i` of a Block (00_scope R12). -/
def Block.get (b : Block) : Fin 5 → Byte
  | 0 => b.b0
  | 1 => b.b1
  | 2 => b.b2
  | 3 => b.b3
  | 4 => b.b4

/-- The Block whose byte `i` is `f i`. -/
def Block.ofFn (f : Fin 5 → Byte) : Block := ⟨f 0, f 1, f 2, f 3, f 4⟩

/-- The Block with byte `i` replaced. -/
def Block.set (b : Block) (i : Fin 5) (v : Byte) : Block :=
  Block.ofFn fun j => if j = i then v else b.get j

/-- The bytes of a Block, byte 0 first. -/
def Block.bytes (b : Block) : List Byte := [b.b0, b.b1, b.b2, b.b3, b.b4]

/-- The Block of the five bytes that `f` gives at `start`, `start + 1`, .., `start + 4`. -/
def Block.ofBytesAt (f : Nat → Byte) (start : Nat) : Block :=
  ⟨f start, f (start + 1), f (start + 2), f (start + 3), f (start + 4)⟩

/-- The bytewise XOR of two Blocks. -/
def Block.xor (a b : Block) : Block := Block.ofFn fun i => a.get i ^^^ b.get i

/-- The Block with its bytes in the opposite order. -/
def Block.rev (b : Block) : Block := ⟨b.b4, b.b3, b.b2, b.b1, b.b0⟩

/-- Byte `i` of a Challenge: bytes 0..4 are the value half, 5..9 the seed half (00_scope R12, 10_state R23). -/
def Challenge.get (c : Challenge) : Fin 10 → Byte
  | 0 => c.value.b0
  | 1 => c.value.b1
  | 2 => c.value.b2
  | 3 => c.value.b3
  | 4 => c.value.b4
  | 5 => c.seed.b0
  | 6 => c.seed.b1
  | 7 => c.seed.b2
  | 8 => c.seed.b3
  | 9 => c.seed.b4

/-- The Challenge whose byte `i` is `f i`. -/
def Challenge.ofFn (f : Fin 10 → Byte) : Challenge :=
  ⟨⟨f 0, f 1, f 2, f 3, f 4⟩, ⟨f 5, f 6, f 7, f 8, f 9⟩⟩

/-- The Challenge with byte `i` replaced. -/
def Challenge.set (c : Challenge) (i : Fin 10) (v : Byte) : Challenge :=
  Challenge.ofFn fun j => if j = i then v else c.get j

/-- `B || D`: the Challenge of two Blocks (00_scope R12). -/
def concatBlocks (a b : Block) : Challenge := ⟨a, b⟩

/-- The fixed initial challenge, "bytes 0..9 set to their own index" (41_blockcipher R153, 44_authentication R207). -/
def initialChallenge : Challenge := Challenge.ofFn fun i => BitVec.ofNat 8 i.val

end Sys2Proof

namespace Sys2Proof.Machine

/-- The index a `cs` or `cd` field denotes; none when the field is 2..7 (30_encoding R93). -/
def crIndex? (f : CrField) : Option (Fin 2) :=
  match f.toNat with
  | 0 => some 0
  | 1 => some 1
  | _ => none

/-- GEN's length, 1..32; none outside the range (30_encoding R94). -/
def length? (imm : Imm) : Option Nat :=
  if 1 ≤ imm.toNat ∧ imm.toNat ≤ 32 then some imm.toNat else none

/-- LDDK's offset, 0..2043; none outside the range (30_encoding R94). -/
def diskKeyOffset? (imm : Imm) : Option Nat :=
  if imm.toNat ≤ 2043 then some imm.toNat else none

/-- AUTH's mode: 0 the disk key, 1 the title key; none otherwise (30_encoding R94). -/
def mode? (imm : Imm) : Option SessionMode :=
  match imm.toNat with
  | 0 => some .disk
  | 1 => some .title
  | _ => none

end Sys2Proof.Machine
end

