-- ==== Sys2Proof/Machine/Flags.lean ====
section
/-! DEFINITION. The STATUS word, the context bytes the host reads, and what each command reports in STATUS
(10_state R28, R31, R32; 30_encoding R107, R108; 60_exceptions R241). -/

namespace Sys2Proof.Machine

/-- The number of an error in `STATUS.ERRCODE` (60_exceptions R241). -/
def errorCode : CoreError → Byte
  | .channelUnavailable => 0x01
  | .sessionGrantFailure => 0x02
  | .variantResolutionFailure => 0x03
  | .driveAuthFailure => 0x04
  | .structureReadFailure => 0x05
  | .noMatchingPlayerKey => 0x06
  | .illegalCommand => 0x10
  | .sectorBounds => 0x12
  | .aborted => 0x13

/-- `code(e)`: 0x00 for no error (30_encoding R107). -/
def outcomeCode : Option CoreError → Byte
  | none => 0x00
  | some e => errorCode e

/-- The value of the `FSM` register (10_state R32). -/
def fsmCode : FsmState → BitVec 4
  | .idle => 0
  | .req => 1
  | .sendch => 2
  | .recvk1 => 3
  | .resv => 4
  | .recvch => 5
  | .sendk2 => 6
  | .busk => 7
  | .fetch => 8
  | .dtks => 9

/-- The value of `FLAGS.MODE` (10_state R32). -/
def modeCode : SessionMode → BitVec 1
  | .disk => 0
  | .title => 1

/-- The value of `FLAGS.ACQPH` (10_state R32). -/
def phaseCode : AcqPhase → BitVec 2
  | .inactive => 0
  | .diskSession => 1
  | .titleSession => 2
  | .decryption => 3

/-- The `VARIANT` register as a byte: 0..31, or 0xFF when unresolved (10_state R31, 92 D16). -/
def variantByte : Option Variant → Byte
  | none => 0xFF
  | some v => v.setWidth 8

/-- The `FLAGS` register: bit 0 ENC, bit 1 MODE, bits 3:2 ACQPH, bits 7:4 zero (10_state R31). -/
def flagsByte (c : Context) : Byte :=
  0#4 ++ phaseCode c.acqPhase ++ modeCode c.mode ++ BitVec.ofBool c.enc

/-- The STATUS word, bit 31 first (10_state R28). -/
def statusWord (s : State) : Word :=
  0#4 ++ fsmCode s.ctx.fsm ++ s.status.result ++ s.status.errCode ++
    0#1 ++ BitVec.ofBool s.ctx.enc ++ BitVec.ofBool s.status.hostErr ++ BitVec.ofBool s.status.busyWr ++
    BitVec.ofBool s.status.anom ++ BitVec.ofBool s.status.err ++ BitVec.ofBool s.status.done ++
    BitVec.ofBool s.status.busy

/-- What the acceptance of a command clears (30_encoding R101). -/
def Status.accepted (t : Status) : Status :=
  { t with done := false, err := false, errCode := 0x00, result := 0x00, anom := false }

/-- What `Complete(e, r)` writes in STATUS (30_encoding R107). -/
def Status.completed (t : Status) (e : Option CoreError) (r : Byte) : Status :=
  { t with done := true, err := e.isSome, errCode := outcomeCode e, result := r, busy := false }

/-- The offset anomaly, "offsets above 0x54" (30_encoding R107, 43_descrambler R190). -/
def offsetAnomaly (offset : Imm) : Bool := 0x54 < offset.toNat

end Sys2Proof.Machine
end

