-- ==== Sys2Proof/Machine/Ops.lean ====
section
/-! DEFINITION. The named operations over memory, registers and STATUS, and the one way a command is submitted,
completes and raises an error (30_encoding R101, R107). The core takes no traps and returns from none
(60_exceptions R249, R250): `raise` is its whole exception operation. -/

namespace Sys2Proof.Machine

/-! ### Memory: the buffers SEC, DK and KS -/

/-- The host address of `SEC[0]` (10_state R33). -/
def secBase : Nat := 0x0000

/-- The host address of `DK[0]` (10_state R33). -/
def dkBase : Nat := 0x0800

/-- The host address of `KS[0]` (10_state R33). -/
def ksBase : Nat := 0x1000

/-- The byte written at an address since the last reset, if one was. -/
def Memory.find? (m : Memory) (a : Nat) : Option Byte :=
  (m.cells.find? fun c => c.1 == a).map (·.2)

/-- What reading the byte at an address gives. A byte that nothing has written since the last reset is unspecified,
"any value": the free value `Config.powerOnByte` (93 U1, 70_reset_and_hazards R274). -/
def Memory.read (m : Memory) (a : Nat) : Byte :=
  (m.find? a).getD (Config.powerOnByte m.resets a)

/-- The cells of consecutive bytes from `base` on. -/
def cellsFrom (base : Nat) : List Byte → List Host.Cell
  | [] => []
  | v :: vs => (base, v) :: cellsFrom (base + 1) vs

/-- Store consecutive bytes from `base` on. -/
def Memory.write (m : Memory) (base : Nat) (vs : List Byte) : Memory :=
  { m with cells := m.cells.filter (fun c => c.1 < base) ++ cellsFrom base vs ++
      m.cells.filter (fun c => base + vs.length ≤ c.1) }

/-- The `n` bytes from `base` on. -/
def Memory.readRange (m : Memory) (base n : Nat) : List Byte :=
  (List.range n).map fun k => m.read (base + k)

/-- `DK[i]` (10_state R26). -/
def State.dk (s : State) (i : Nat) : Byte := s.mem.read (dkBase + i)

/-- `SEC[i]` (10_state R25). -/
def State.sec (s : State) (i : Nat) : Byte := s.mem.read (secBase + i)

/-- `KS[i]` (10_state R24). -/
def State.ks (s : State) (i : Nat) : Byte := s.mem.read (ksBase + i)

/-- Store bytes in memory. -/
def State.store (s : State) (base : Nat) (vs : List Byte) : State :=
  { s with mem := s.mem.write base vs }

/-! ### Operand registers -/

/-- `BR[r]` (10_state R22). -/
def State.readBR (s : State) (r : BrIndex) : Block := s.br.get r.toFin

/-- `BR[r] <- b` (10_state R22). -/
def State.writeBR (s : State) (r : BrIndex) (b : Block) : State :=
  { s with br := s.br.set r.toNat b r.isLt }

/-- `CR[c]` (10_state R23). -/
def State.readCR (s : State) (c : Fin 2) : Challenge := s.cr.get c

/-- `CR[c] <- x` (10_state R23). -/
def State.writeCR (s : State) (c : Fin 2) (x : Challenge) : State :=
  { s with cr := s.cr.set c.val x c.isLt }

/-! ### Submission, completion, errors -/

/-- The acceptance of a command (30_encoding R101). -/
def State.accept (s : State) : State := { s with status := s.status.accepted }

/-- `Complete(e, r)` for a primitive command (30_encoding R107). -/
def State.complete (s : State) (e : Option CoreError) (r : Byte) : State :=
  { s with status := s.status.completed e r }

/-- `raise e` with the command's failure result (30_encoding R107, 60_exceptions R242, R249). -/
def State.raise (s : State) (e : CoreError) (r : Byte) : State := s.complete (some e) r

/-- The part of a DSCR's or DESCR's completion that other commands lack: `ANOM <- (offset > 0x54)`
(30_encoding R107). -/
def State.markAnomaly (s : State) (offset : Imm) : State :=
  { s with status := { s.status with anom := offsetAnomaly offset } }

/-- `Complete(e, r)` for a session command, which also returns the FSM to IDLE (30_encoding R107). -/
def State.completeSession (s : State) (e : Option CoreError) (r : Byte) : State :=
  { s.complete e r with ctx := { s.ctx with fsm := .idle } }

/-- `STATUS.BUSYWR <- 1`: a host write or command was dropped (20_memory R67). -/
def State.dropBusy (s : State) : State := { s with status := { s.status with busyWr := true } }

/-- `STATUS.HOSTERR <- 1`: an illegal host access (20_memory R63). -/
def State.hostError (s : State) : State := { s with status := { s.status with hostErr := true } }

/-- `SubmitCommand` for any command but CLRCTX: dropped while BUSY, else accepted and then run by its rule
(30_encoding R101). -/
def State.submit (s : State) (rule : State → State) : State :=
  if s.status.busy then s.dropBusy else rule s.accept

/-- An accepted illegal command: it changes STATUS only (30_encoding R98). -/
def State.illegal (s : State) : State := s.raise .illegalCommand 0x00

/-- Run a rule whose operand is legal only if the field denotes one; an operand out of range makes the command
illegal (30_encoding R93, R94, R98). -/
def State.withOperand {α : Type} (s : State) (operand : Option α) (rule : State → α → State) : State :=
  match operand with
  | none => s.illegal
  | some x => rule s x

/-- What a step or a meaning answers. -/
abbrev Result := Host.Outcome State Fault Refusal

/-- Send something out of the core. -/
def State.emit (s : State) (o : Output) : State := { s with outputs := s.outputs ++ [o] }

end Sys2Proof.Machine
end

