-- ==== Sys2Proof/Machine/Bus.lean ====
section
/-! DEFINITION. The host address map and the host's reads and writes, all but the submission of a command
(10_state R30, R31, R33; 20_memory R61-R69). -/

namespace Sys2Proof.Machine

/-- The byte-wide context registers (10_state R31). -/
inductive ContextByte where
  | chal (i : Fin 10)
  | dchal (i : Fin 10)
  | key1 (i : Fin 5)
  | key2 (i : Fin 5)
  | keycheck (i : Fin 5)
  | etk (i : Fin 5)
  | titleKey (i : Fin 5)
  | variant
  | attempts
  | fsm
  | flags
deriving DecidableEq, Repr

/-- The word registers (20_memory R62). -/
inductive WordRegister where
  | cmd
  | status
  | lba
  | sid
deriving DecidableEq, Repr

/-- What stands at a host address (10_state R33). -/
inductive Location where
  /-- A byte of SEC, DK or KS. -/
  | buffer
  /-- `BR[r][i]`. -/
  | br (r : BrIndex) (i : Fin 5)
  /-- `CR[c][i]`. -/
  | cr (c : Fin 2) (i : Fin 10)
  /-- A byte-wide context register, read-only. -/
  | context (b : ContextByte)
  /-- The address of a word register. -/
  | word (w : WordRegister)
  /-- A byte of a word register other than its address. -/
  | insideWord
  /-- A reserved address. -/
  | reserved
deriving DecidableEq, Repr

/-- A reserved address unless the offset `k` from a slot's start is below the slot's length `n`. -/
def slot (n k : Nat) (f : Fin n → Location) : Location :=
  if h : k < n then f ⟨k, h⟩ else .reserved

/-- A word register's address, or a byte inside it, by the offset from its address. -/
def wordAt (w : WordRegister) (k : Nat) : Location := if k = 0 then .word w else .insideWord

/-- The host address map (10_state R30, R31, R33). -/
def locate (addr : HostAddr) : Location :=
  let a := addr.toNat
  if a < 0x1020 then .buffer
  else if a < 0x1060 then slot 5 ((a - 0x1020) % 8) (.br (BitVec.ofNat 3 ((a - 0x1020) / 8)))
  else if a < 0x1070 then slot 10 (a - 0x1060) (.cr 0)
  else if a < 0x1080 then slot 10 (a - 0x1070) (.cr 1)
  else if a < 0x1084 then wordAt .cmd (a - 0x1080)
  else if a < 0x1088 then wordAt .status (a - 0x1084)
  else if a < 0x108C then wordAt .lba (a - 0x1088)
  else if a < 0x10A0 then .reserved
  else if a < 0x10B0 then slot 10 (a - 0x10A0) fun i => .context (.chal i)
  else if a < 0x10C0 then slot 10 (a - 0x10B0) fun i => .context (.dchal i)
  else if a < 0x10C8 then slot 5 (a - 0x10C0) fun i => .context (.key1 i)
  else if a < 0x10D0 then slot 5 (a - 0x10C8) fun i => .context (.key2 i)
  else if a < 0x10D8 then slot 5 (a - 0x10D0) fun i => .context (.keycheck i)
  else if a < 0x10E0 then slot 5 (a - 0x10D8) fun i => .context (.etk i)
  else if a < 0x10E8 then slot 5 (a - 0x10E0) fun i => .context (.titleKey i)
  else if a = 0x10E8 then .context .variant
  else if a = 0x10E9 then .context .attempts
  else if a = 0x10EA then .context .fsm
  else if a = 0x10EB then .context .flags
  else if a < 0x10F0 then wordAt .sid (a - 0x10EC)
  else .reserved

/-- A legal access: one byte in a byte region, four bytes at a word register, one byte or four aligned bytes at a
reserved address (20_memory R62). -/
def legalAccess (addr : HostAddr) (n : Nat) : Bool :=
  match locate addr with
  | .buffer => n == 1
  | .br _ _ => n == 1
  | .cr _ _ => n == 1
  | .context _ => n == 1
  | .word _ => n == 4
  | .insideWord => false
  | .reserved => n == 1 || (n == 4 && addr.toNat % 4 == 0)

/-- The value of a byte-wide context register (10_state R31). -/
def readContext (c : Context) : ContextByte → Byte
  | .chal i => c.chal.get i
  | .dchal i => c.dchal.get i
  | .key1 i => c.key1.get i
  | .key2 i => c.key2.get i
  | .keycheck i => c.keycheck.get i
  | .etk i => c.etk.get i
  | .titleKey i => c.titleKey.get i
  | .variant => variantByte c.variant
  | .attempts => c.attempts
  | .fsm => (fsmCode c.fsm).setWidth 8
  | .flags => flagsByte c

/-- The value of a word register; CMD is write-only and reads 0 (10_state R27-R29, R31). -/
def readWordRegister (s : State) : WordRegister → Word
  | .cmd => 0
  | .status => statusWord s
  | .lba => s.lba
  | .sid => s.ctx.sid

/-- The value a legal read of an address returns, a byte zero-filled to a word (20_memory R63, R64). -/
def readLocation (s : State) (addr : HostAddr) : Word :=
  match locate addr with
  | .buffer => (s.mem.read addr.toNat).setWidth 32
  | .br r i => ((s.readBR r).get i).setWidth 32
  | .cr c i => ((s.readCR c).get i).setWidth 32
  | .context b => (readContext s.ctx b).setWidth 32
  | .word w => readWordRegister s w
  | .insideWord => 0
  | .reserved => 0

/-- `HostRead(addr, n)`: the value goes out to the host; an illegal read returns 0 and sets HOSTERR (20_memory R63,
R66). -/
def State.hostRead (s : State) (addr : HostAddr) (n : Nat) : State :=
  if legalAccess addr n then s.emit (.readData (readLocation s addr))
  else s.hostError.emit (.readData 0)

/-- The effect of a legal, accepted write to an address other than CMD: read-only and reserved places ignore it
(20_memory R63, R64). -/
def State.storeLocation (s : State) (addr : HostAddr) (v : Word) : State :=
  match locate addr with
  | .buffer => s.store addr.toNat [v.setWidth 8]
  | .br r i => s.writeBR r ((s.readBR r).set i (v.setWidth 8))
  | .cr c i => s.writeCR c ((s.readCR c).set i (v.setWidth 8))
  | .context _ => s
  | .word .lba => { s with lba := v }
  | .word .cmd => s
  | .word .status => s
  | .word .sid => s
  | .insideWord => s
  | .reserved => s

/-- A legal write to an address other than CMD: dropped while BUSY (20_memory R63, R67). -/
def State.hostStore (s : State) (addr : HostAddr) (v : Word) : State :=
  if s.status.busy then s.dropBusy else s.storeLocation addr v

end Sys2Proof.Machine
end

