-- ==== Sys2Proof/Machine/BitStream.lean ====
section
/-! DEFINITION. The BitStreamGenerator and GEN (spec/40_bitstream.md). -/

namespace Sys2Proof.Machine

/-- The generator's transient registers (10_state R35, 40_bitstream R121). -/
structure Generator where
  lfsr0 : BitVec 25
  lfsr1 : BitVec 17
  carry : Bool
deriving DecidableEq, Repr

/-- Seeding from a 5-byte seed (40_bitstream R122, R123; packing: 93 G1, G2). -/
def seedGenerator (s : Block) : Generator where
  lfsr0 := (s.b0.setWidth 25 <<< 17) ||| (s.b1.setWidth 25 <<< 9) ||| ((s.b2 &&& 0xF8).setWidth 25 <<< 1) |||
    0x8 ||| (s.b2 &&& 0x07).setWidth 25
  lfsr1 := (s.b3.setWidth 17 <<< 9) ||| 0x100 ||| s.b4.setWidth 17
  carry := false

/-- The new feedback bit of `lfsr0`: taps 24, 21, 20, 12 (40_bitstream R124). -/
def feedback0 (l : BitVec 25) : Bool :=
  l.getLsbD 24 ^^ l.getLsbD 21 ^^ l.getLsbD 20 ^^ l.getLsbD 12

/-- The new feedback bit of `lfsr1`: taps 16, 2 (40_bitstream R124). -/
def feedback1 (l : BitVec 17) : Bool := l.getLsbD 16 ^^ l.getLsbD 2

/-- `combined = !tap1 + carry + !tap0`, 0..3, with the taps read as the new feedback bits (40_bitstream R124; 93 G3). -/
def combined (f1 carry f0 : Bool) : Nat := (!f1).toNat + carry.toNat + (!f0).toNat

/-- One output bit, and the registers after it (40_bitstream R124, R125). -/
def stepBit (g : Generator) : Bool × Generator :=
  let f0 := feedback0 g.lfsr0
  let f1 := feedback1 g.lfsr1
  let c := combined f1 g.carry f0
  (c.testBit 0,
    { lfsr0 := (g.lfsr0 <<< 1) ||| (BitVec.ofBool f0).setWidth 25
      lfsr1 := (g.lfsr1 <<< 1) ||| (BitVec.ofBool f1).setWidth 17
      carry := c.testBit 1 })

/-- `count` output bits placed at bit positions `bit`, `bit + 1`, .. of `val` (40_bitstream R126). -/
def assembleBits : (count bit : Nat) → (val : Byte) → Generator → Byte × Generator
  | 0, _, val, g => (val, g)
  | count + 1, bit, val, g =>
    let r := stepBit g
    assembleBits count (bit + 1) (val ||| ((BitVec.ofBool r.1).setWidth 8 <<< bit)) r.2

/-- One output byte, its first bit the least significant (40_bitstream R126). -/
def nextByte (g : Generator) : Byte × Generator := assembleBits 8 0 0 g

/-- `n` more output bytes in front of `out`: each byte is stored one index below the byte produced before it
(40_bitstream R126, R127). -/
def generateOnto : (n : Nat) → Generator → (out : List Byte) → List Byte
  | 0, _, out => out
  | n + 1, g, out =>
    let r := nextByte g
    generateOnto n r.2 (r.1 :: out)

/-- `Generate(s, n)`: `n` bytes, index 0 first, the first byte produced at index `n - 1` (40_bitstream R127). -/
def generate (s : Block) (n : Nat) : List Byte := generateOnto n (seedGenerator s) []

/-- `GEN rs, len`: `KS[0..len-1] <- Generate(BR[rs], len)` (40_bitstream R128). -/
def execGen (rs : BrIndex) (len : Imm) (s : State) : Result :=
  .next (s.submit fun s => s.withOperand (length? len) fun s n =>
    (s.store ksBase (generate (s.readBR rs) n)).complete none 0x00)

end Sys2Proof.Machine
end

