-- ==== Sys2Proof/Machine/BlockCipher.lean ====
section
/-! DEFINITION. The BlockCipher and the ChallengePermuter: BC, K1T, K2T, BKT, FINDV, INITCH, CAT
(spec/41_blockcipher.md). The table contents are the configuration's (00_scope R9). -/

namespace Sys2Proof.Machine

/-- The generator seed of an evaluation: `t[i] = x[5+i] ^ SECRET[i] ^ BCT2[i]` (41_blockcipher R137; 93 G5). -/
def reseed (cfg : Config) (seed : Block) : Block :=
  Block.ofFn fun i => seed.get i ^^^ cfg.secret.get i ^^^ cfg.bct2 (BitVec.ofNat 8 i.val)

/-- `cse = VARIANTS[v] ^ BCT2[v]` (41_blockcipher R139; 93 G6). -/
def variantConstant (cfg : Config) (v : Variant) : Byte := cfg.variants v ^^^ cfg.bct2 (v.setWidth 8)

/-- One byte position of a round: the keystream byte `k`, the round's input byte `x` there, and `term`
(41_blockcipher R140, R141; 93 G8). -/
def substitute (cfg : Config) (cse : Byte) (sub : Bool) (k x term : Byte) : Byte :=
  let idx := k ^^^ x
  let j := cfg.bct1 idx ^^^ ~~~(cfg.bct2 idx) ^^^ cse
  let out := cfg.bct2 j ^^^ cfg.bct3 j ^^^ term
  if sub then cfg.bct0 out ^^^ cfg.bct2 out else out

/-- `Round` without its fold. `term` is the round's input byte at the next-higher position, 0 at position 4
(41_blockcipher R141, R142; 93 G9). -/
def cipherRound (cfg : Config) (cse : Byte) (sub : Bool) (ks inp : Block) : Block where
  b4 := substitute cfg cse sub ks.b4 inp.b4 0
  b3 := substitute cfg cse sub ks.b3 inp.b3 inp.b4
  b2 := substitute cfg cse sub ks.b2 inp.b2 inp.b3
  b1 := substitute cfg cse sub ks.b1 inp.b1 inp.b2
  b0 := substitute cfg cse sub ks.b0 inp.b0 inp.b1

/-- `out[4] ^= out[0]`, which ends rounds 1 to 5 (41_blockcipher R140, R141; 93 G10). -/
def fold (b : Block) : Block := { b with b4 := b.b4 ^^^ b.b0 }

/-- The five keystream bytes `bits[base .. base+4]` (41_blockcipher R140; 93 G7). -/
def slice (bits : List Byte) (base : Nat) : Block := Block.ofBytesAt (fun i => bits.getD i 0) base

/-- `Cipher(v, x)` (41_blockcipher R136-R142). -/
def cipher (cfg : Config) (v : Variant) (x : Challenge) : Block :=
  let bits := generate (reseed cfg x.seed) 30
  let cse := variantConstant cfg v
  let r1 := fold (cipherRound cfg cse false (slice bits 25) x.value)
  let r2 := fold (cipherRound cfg cse false (slice bits 20) r1)
  let r3 := fold (cipherRound cfg cse true (slice bits 15) r2)
  let r4 := fold (cipherRound cfg cse true (slice bits 10) r3)
  let r5 := fold (cipherRound cfg cse false (slice bits 5) r4)
  cipherRound cfg cse false (slice bits 0) r5

/-- `gather(ch, P)[i] = ch[P[i]]` (41_blockcipher R144, R145; 93 G11). -/
def gather (ch : Challenge) (p : Vector (Fin 10) 10) : Challenge := Challenge.ofFn fun i => ch.get (p.get i)

/-- `P1`, Key1Transform's permutation (41_blockcipher R144). -/
def perm1 : Vector (Fin 10) 10 := #v[1, 3, 0, 7, 5, 2, 9, 6, 4, 8]

/-- `P2`, Key2Transform's permutation (41_blockcipher R144). -/
def perm2 : Vector (Fin 10) 10 := #v[6, 1, 9, 3, 8, 5, 7, 4, 0, 2]

/-- `P3`, BusKeyTransform's permutation (41_blockcipher R144). -/
def perm3 : Vector (Fin 10) 10 := #v[4, 0, 3, 5, 7, 2, 8, 6, 1, 9]

/-- `Key1Transform` (41_blockcipher R145). -/
def key1Transform (cfg : Config) (v : Variant) (ch : Challenge) : Block := cipher cfg v (gather ch perm1)

/-- `Key2Transform` (41_blockcipher R145). -/
def key2Transform (cfg : Config) (v : Variant) (ch : Challenge) : Block :=
  cipher cfg (cfg.permv1 v) (gather ch perm2)

/-- `BusKeyTransform` (41_blockcipher R145). -/
def busKeyTransform (cfg : Config) (v : Variant) (ch : Challenge) : Block :=
  cipher cfg (cfg.permv2 v) (gather ch perm3)

/-- The variants in the order of the search (41_blockcipher R151). -/
def variantsInOrder : List Variant := (List.range 32).map (BitVec.ofNat 5)

/-- `ResolveVariant(ch, k1)`: the first variant, from 0 up, whose key1 has all five bytes equal
(41_blockcipher R151). -/
def resolveVariant (cfg : Config) (ch : Challenge) (k1 : Block) : Option Variant :=
  variantsInOrder.find? fun v => key1Transform cfg v ch == k1

/-- `BC rd, cs, var`: `BR[rd] <- Cipher(var, CR[cs])` (41_blockcipher R146). -/
def execBc (rd : BrIndex) (cs : CrField) (var : Variant) (s : State) : Result :=
  .next (s.submit fun s => s.withOperand (crIndex? cs) fun s c =>
    (s.writeBR rd (cipher Config.platform var (s.readCR c))).complete none 0x00)

/-- `K1T rd, cs, var`: `BR[rd] <- Key1Transform(var, CR[cs])` (41_blockcipher R148). -/
def execK1t (rd : BrIndex) (cs : CrField) (var : Variant) (s : State) : Result :=
  .next (s.submit fun s => s.withOperand (crIndex? cs) fun s c =>
    (s.writeBR rd (key1Transform Config.platform var (s.readCR c))).complete none 0x00)

/-- `K2T rd, cs, var`: `BR[rd] <- Key2Transform(var, CR[cs])` (41_blockcipher R149). -/
def execK2t (rd : BrIndex) (cs : CrField) (var : Variant) (s : State) : Result :=
  .next (s.submit fun s => s.withOperand (crIndex? cs) fun s c =>
    (s.writeBR rd (key2Transform Config.platform var (s.readCR c))).complete none 0x00)

/-- `BKT rd, cs, var`: `BR[rd] <- BusKeyTransform(var, CR[cs])` (41_blockcipher R150). -/
def execBkt (rd : BrIndex) (cs : CrField) (var : Variant) (s : State) : Result :=
  .next (s.submit fun s => s.withOperand (crIndex? cs) fun s c =>
    (s.writeBR rd (busKeyTransform Config.platform var (s.readCR c))).complete none 0x00)

/-- `FINDV cs, ra`: RESULT is the variant resolved for `CR[cs]` against `BR[ra]`; no register is written
(41_blockcipher R152). -/
def execFindv (cs : CrField) (ra : BrIndex) (s : State) : Result :=
  .next (s.submit fun s => s.withOperand (crIndex? cs) fun s c =>
    match resolveVariant Config.platform (s.readCR c) (s.readBR ra) with
    | none => s.raise .variantResolutionFailure 0xFF
    | some v => s.complete none (v.setWidth 8))

/-- `INITCH cd`: `CR[cd]` becomes the fixed initial challenge (41_blockcipher R153). -/
def execInitch (cd : CrField) (s : State) : Result :=
  .next (s.submit fun s => s.withOperand (crIndex? cd) fun s c =>
    (s.writeCR c initialChallenge).complete none 0x00)

/-- `CAT cd, ra, rb`: `CR[cd] <- BR[ra] || BR[rb]` (41_blockcipher R154). -/
def execCat (cd : CrField) (ra rb : BrIndex) (s : State) : Result :=
  .next (s.submit fun s => s.withOperand (crIndex? cd) fun s c =>
    (s.writeCR c (concatBlocks (s.readBR ra) (s.readBR rb))).complete none 0x00)

end Sys2Proof.Machine
end

