-- ==== Sys2Proof/Machine/KeyDerivation.lean ====
section
/-! DEFINITION. The LFSR pair, mix, the title-key decryption and the bus-key XOR: MIX, LDDK, DTK, XDK, XBK
(spec/42_keyderivation.md). -/

namespace Sys2Proof.Machine

/-- The LFSR pair's transient registers (10_state R36, 42_keyderivation R161), `r0` in forward orientation (R164). -/
structure LfsrPair where
  lo : BitVec 9
  hi : Byte
  r0 : Word
deriving DecidableEq, Repr

/-- `rev8(x)`: bit `i` is bit `7-i` of `x` (00_scope R14). -/
def rev8 (x : Byte) : Byte := x.reverse

/-- `PairSeed(s)` (42_keyderivation R162; 93 G12). -/
def pairSeed (s : Block) : LfsrPair where
  lo := s.b0.setWidth 9 ||| 0x100
  hi := s.b1
  r0 := (s.b4.setWidth 32 <<< 17) ||| (s.b3.setWidth 32 <<< 9) ||| ((s.b2 &&& 0xF8).setWidth 32 <<< 1) |||
    0x8 ||| (s.b2 &&& 0x07).setWidth 32

/-- `o0`, the byte that `r0` gives in a step (42_keyderivation R163; 93 G13). -/
def r0Output (r0 : Word) : Byte :=
  (((((((r0 >>> 3) ^^^ r0) >>> 1) ^^^ r0) >>> 8) ^^^ r0) >>> 5).setWidth 8

/-- `PairStep()`: the bytes `f0` and `f1`, and the registers after the step (42_keyderivation R163; 93 G13). -/
def pairStep (cfg : Config) (p : LfsrPair) : (Byte × Byte) × LfsrPair :=
  let o1 := cfg.tab2 p.hi ^^^ cfg.tab3 p.lo
  let o0 := r0Output p.r0
  ((rev8 o0, rev8 o1),
    { hi := (p.lo >>> 1).setWidth 8
      lo := ((p.lo &&& 1) <<< 8) ^^^ o1.setWidth 9
      r0 := (p.r0 <<< 8) ||| o0.setWidth 32 })

/-- One accumulation: the low byte of `acc + a + b`, and what is left after `acc >> 8` (42_keyderivation R166,
43_descrambler R189). -/
def accumulate (acc : Nat) (a b : Byte) : Byte × Nat :=
  let t := acc + a.toNat + b.toNat
  (BitVec.ofNat 8 t, t / 256)

/-- One combined byte of mix, and the pair and accumulator after it. `m` masks `f0` (42_keyderivation R166; 93 G15). -/
def combineStep (cfg : Config) (m : Byte) (p : LfsrPair) (acc : Nat) : Byte × LfsrPair × Nat :=
  let r := pairStep cfg p
  let a := accumulate acc (r.1.1 ^^^ m) r.1.2
  (a.1, r.2, a.2)

/-- The combined bytes `c[0..4]` (42_keyderivation R166). -/
def combinedBytes (cfg : Config) (s : Block) (inv : Bool) : Block :=
  let m : Byte := if inv then 0xFF else 0x00
  let c0 := combineStep cfg m (pairSeed s) 0
  let c1 := combineStep cfg m c0.2.1 c0.2.2
  let c2 := combineStep cfg m c1.2.1 c1.2.2
  let c3 := combineStep cfg m c2.2.1 c2.2.2
  let c4 := combineStep cfg m c3.2.1 c3.2.2
  ⟨c0.1, c1.1, c2.1, c3.1, c4.1⟩

/-- Pass 1 of the fold, from index 4 down to 0: each byte takes the old byte below it, and byte 0 the new byte 4
(42_keyderivation R168; 93 G16). -/
def foldPass1 (cfg : Config) (c k : Block) : Block :=
  let k4 := c.b4 ^^^ cfg.tab1 k.b4 ^^^ k.b3
  let k3 := c.b3 ^^^ cfg.tab1 k.b3 ^^^ k.b2
  let k2 := c.b2 ^^^ cfg.tab1 k.b2 ^^^ k.b1
  let k1 := c.b1 ^^^ cfg.tab1 k.b1 ^^^ k.b0
  let k0 := c.b0 ^^^ cfg.tab1 k.b0 ^^^ k4
  ⟨k0, k1, k2, k3, k4⟩

/-- Pass 2 of the fold, from index 4 down to 0: byte 0 has no final term (42_keyderivation R168; 93 G16). -/
def foldPass2 (cfg : Config) (c k : Block) : Block where
  b4 := c.b4 ^^^ cfg.tab1 k.b4 ^^^ k.b3
  b3 := c.b3 ^^^ cfg.tab1 k.b3 ^^^ k.b2
  b2 := c.b2 ^^^ cfg.tab1 k.b2 ^^^ k.b1
  b1 := c.b1 ^^^ cfg.tab1 k.b1 ^^^ k.b0
  b0 := c.b0 ^^^ cfg.tab1 k.b0

/-- `Mix(k, s, inv)` (42_keyderivation R167, R168). -/
def mix (cfg : Config) (k s : Block) (inv : Bool) : Block :=
  let c := combinedBytes cfg s inv
  foldPass2 cfg c (foldPass1 cfg c k)

/-- The pre-title-key of a player key (42_keyderivation R172). -/
def preTitleKey (cfg : Config) (dk : Nat → Byte) (pk : PlayerKey) : Block :=
  mix cfg (Block.ofBytesAt dk pk.offset.val) pk.key false

/-- A candidate is confirmed when mixing the first five disk-key bytes under the pre-title-key gives it back
(42_keyderivation R172). -/
def verifies (cfg : Config) (dk : Nat → Byte) (pre : Block) : Bool :=
  mix cfg (Block.ofBytesAt dk 0) pre false == pre

/-- The first confirmed player key, in table order (42_keyderivation R172). -/
def confirmedKey (cfg : Config) (dk : Nat → Byte) : Option (Fin 10) :=
  (List.finRange 10).find? fun j => verifies cfg dk (preTitleKey cfg dk (cfg.playerKeys j))

/-- `DecryptTitleKey(dk, etk)`: the title key and the index of the confirmed player key (42_keyderivation R172). -/
def decryptTitleKey (cfg : Config) (dk : Nat → Byte) (etk : Block) : Option (Block × Fin 10) :=
  (confirmedKey cfg dk).map fun j => (mix cfg etk (preTitleKey cfg dk (cfg.playerKeys j)) true, j)

/-- Each byte, from index `i` on, XORed with `bk[4 - (i mod 5)]` (42_keyderivation R175). -/
def xorCyclic (bk : Block) : (i : Nat) → List Byte → List Byte
  | _, [] => []
  | i, v :: vs => (v ^^^ bk.rev.get (Fin.ofNat 5 i)) :: xorCyclic bk (i + 1) vs

/-- `t[i] ^ bk[4 - i]` for the five bytes of a Block (42_keyderivation R176). -/
def xorTitleKey (t bk : Block) : Block := t.xor bk.rev

/-- `MIX rd, rs, inv`: `BR[rd] <- Mix(BR[rd], BR[rs], inv)` (42_keyderivation R170). -/
def execMix (rd rs : BrIndex) (inv : Bool) (s : State) : Result :=
  .next (s.submit fun s =>
    (s.writeBR rd (mix Config.platform (s.readBR rd) (s.readBR rs) inv)).complete none 0x00)

/-- `LDDK rd, off`: `BR[rd] <- DK[off .. off+4]` (42_keyderivation R171). -/
def execLddk (rd : BrIndex) (off : Imm) (s : State) : Result :=
  .next (s.submit fun s => s.withOperand (diskKeyOffset? off) fun s o =>
    (s.writeBR rd (Block.ofBytesAt s.dk o)).complete none 0x00)

/-- `DTK rd, rs`: `BR[rd]` becomes the title key decrypted from DK with the obfuscated title key `BR[rs]`, RESULT the
index of the confirmed player key (42_keyderivation R173). -/
def execDtk (rd rs : BrIndex) (s : State) : Result :=
  .next (s.submit fun s =>
    match decryptTitleKey Config.platform s.dk (s.readBR rs) with
    | none => s.raise .noMatchingPlayerKey 0xFF
    | some (tk, j) => (s.writeBR rd tk).complete none (BitVec.ofNat 8 j.val))

/-- `XDK rs`: the whole of DK XORed with the bus key `BR[rs]` (42_keyderivation R175). -/
def execXdk (rs : BrIndex) (s : State) : Result :=
  .next (s.submit fun s =>
    (s.store dkBase (xorCyclic (s.readBR rs) 0 (s.mem.readRange dkBase 2048))).complete none 0x00)

/-- `XBK rd, rs`: `BR[rd][i] <- BR[rd][i] ^ BR[rs][4 - i]` (42_keyderivation R176). -/
def execXbk (rd rs : BrIndex) (s : State) : Result :=
  .next (s.submit fun s =>
    (s.writeBR rd (xorTitleKey (s.readBR rd) (s.readBR rs))).complete none 0x00)

end Sys2Proof.Machine
end

