-- ==== Sys2Proof/Machine/Authentication.lean ====
section
/-! DEFINITION. The AuthenticationProtocol FSM and its commands AUTH, ACQ, and the control commands CLRCTX and NOP
(spec/44_authentication.md). -/

namespace Sys2Proof.Machine

/-! ### The collaborator interface -/

/-- The call pending in a state of the core: a function of the registers alone (44_authentication R201, R204). -/
def pendingCall (s : State) : Option Call :=
  if s.status.busy then
    match s.ctx.fsm with
    | .req => some .openSession
    | .sendch => some (.sendChallenge s.ctx.sid s.ctx.chal)
    | .recvk1 => some (.receiveKey1 s.ctx.sid)
    | .recvch => some (.receiveChallenge s.ctx.sid)
    | .sendk2 => some (.sendKey2 s.ctx.sid s.ctx.key2)
    | .fetch =>
      match s.ctx.mode with
      | .disk => some (.readDiskKeyStructure s.ctx.sid)
      | .title => some (.readTitleKeyStructure s.ctx.sid s.lba)
    | .idle => none
    | .resv => none
    | .busk => none
    | .dtks => none
  else none

/-- The answer type of each call (44_authentication R203). -/
def answers : Call → Answer → Bool
  | .openSession, .noChannel => true
  | .openSession, .grantFail => true
  | .openSession, .sid _ => true
  | .sendChallenge _ _, .ack => true
  | .receiveKey1 _, .block _ => true
  | .receiveChallenge _, .challenge _ => true
  | .sendKey2 _ _, .ok => true
  | .sendKey2 _ _, .authFailure => true
  | .readDiskKeyStructure _, .diskData _ => true
  | .readDiskKeyStructure _, .error => true
  | .readTitleKeyStructure _ _, .titleData _ => true
  | .readTitleKeyStructure _ _, .error => true
  | _, _ => false

/-! ### Sessions -/

/-- `GRANT_MAX_ATTEMPTS`, 1..255 (00_scope R9, 44_authentication R206). -/
def grantMaxAttempts (cfg : Config) : Nat := cfg.grantRetries.val + 1

/-- `FSM <- f`. -/
def State.toFsm (s : State) (f : FsmState) : State := { s with ctx := { s.ctx with fsm := f } }

/-- `StartSession(m)` (44_authentication R205). -/
def State.startSession (s : State) (m : SessionMode) : State :=
  { s with ctx := { s.ctx with mode := m, variant := none, attempts := 0, fsm := .req } }

/-- `AcqEnd(e, r)` (44_authentication R216). -/
def State.acqEnd (s : State) (e : Option CoreError) (r : Byte) : State :=
  { s with ctx := { s.ctx with acqPhase := .inactive } }.completeSession e r

/-- `SessionEnd(e)` of an AUTH (44_authentication R216). -/
def State.endAuth (s : State) : Option CoreError → State
  | none => s.completeSession none (variantByte s.ctx.variant)
  | some e => s.completeSession (some e) 0xFF

/-- `SessionEnd(e)` of ACQ's disk-key session: no channel means Unencrypted, success starts the title-key session
(44_authentication R216). -/
def State.endDiskSession (s : State) : Option CoreError → State
  | none => { s with ctx := { s.ctx with acqPhase := .titleSession } }.startSession .title
  | some .channelUnavailable => s.acqEnd none 0x00
  | some e => s.acqEnd (some e) 0xFF

/-- `SessionEnd(e)` of ACQ's title-key session (44_authentication R216). -/
def State.endTitleSession (s : State) : Option CoreError → State
  | none => { s with ctx := { s.ctx with acqPhase := .decryption } }.toFsm .dtks
  | some e => s.acqEnd (some e) 0xFF

/-- `SessionEnd(e)`, by the phase that `ACQPH` shows (44_authentication R216). -/
def State.sessionEnd (s : State) (e : Option CoreError) : Result :=
  match s.ctx.acqPhase with
  | .inactive => .next (s.endAuth e)
  | .diskSession => .next (s.endDiskSession e)
  | .titleSession => .next (s.endTitleSession e)
  | .decryption => .fault .noSessionToEnd

/-! ### FSM steps in call states: the answer has come -/

/-- REQ, `GrantFail`: count it, invalidate the current SID, and retry within the budget (44_authentication R206). -/
def State.grantFailed (cfg : Config) (s : State) : Result :=
  let s := { s with ctx := { s.ctx with attempts := s.ctx.attempts + 1 } }.emit (.invalidateSession s.ctx.sid)
  if grantMaxAttempts cfg ≤ s.ctx.attempts.toNat then s.sessionEnd (some .sessionGrantFailure)
  else .next (s.toFsm .req)

/-- REQ, `Sid(s)`: the session id and the fixed initial challenge (44_authentication R206, R207). -/
def State.granted (s : State) (sid : Word) : State :=
  { s with ctx := { s.ctx with sid := sid, chal := initialChallenge, fsm := .sendch } }

/-- RECVK1 (44_authentication R208). -/
def State.key1Received (s : State) (k : Block) : State :=
  { s with ctx := { s.ctx with key1 := k, fsm := .resv } }

/-- RECVCH: the drive's challenge and the key2 it gives under the resolved variant (44_authentication R210). -/
def State.challengeReceived (cfg : Config) (s : State) (c : Challenge) : Result :=
  match s.ctx.variant with
  | none => .fault .variantUnresolved
  | some v => .next { s with ctx := { s.ctx with dchal := c, key2 := key2Transform cfg v c, fsm := .sendk2 } }

/-- FETCH with MODE = 0, `Data(d)`: the whole of DK, bus-key XORed (44_authentication R214). -/
def State.diskKeyFetched (s : State) (d : Vector Byte 2048) : Result :=
  (s.store dkBase (xorCyclic s.ctx.keycheck 0 d.toList)).sessionEnd none

/-- FETCH with MODE = 1, `Data(d)`: the obfuscated title key (44_authentication R215). -/
def State.titleKeyFetched (s : State) (d : Block) : Result :=
  { s with ctx := { s.ctx with etk := xorTitleKey d s.ctx.keycheck } }.sessionEnd none

/-- What an answer of the pending call's type does (44_authentication R206-R215). The call decides which rule reads
it, so an answer that is no answer of the pending call never comes here. -/
def State.answered (cfg : Config) (s : State) : Answer → Result
  | .noChannel => s.sessionEnd (some .channelUnavailable)
  | .grantFail => s.grantFailed cfg
  | .sid v => .next (s.granted v)
  | .ack => .next (s.toFsm .recvk1)
  | .block k => .next (s.key1Received k)
  | .challenge c => s.challengeReceived cfg c
  | .ok => .next (s.toFsm .busk)
  | .authFailure => s.sessionEnd (some .driveAuthFailure)
  | .diskData d => s.diskKeyFetched d
  | .titleData d => s.titleKeyFetched d
  | .error => s.sessionEnd (some .structureReadFailure)

/-- The step of a call state: the core issues the pending call and receives the answer in the same step
(44_authentication R202). With no call pending, or an answer outside the call's type, nothing happens. -/
def answerStep (cfg : Config) (a : Answer) (s : State) : Result :=
  match pendingCall s with
  | none => .next s
  | some c => if answers c a then (s.emit (.call c)).answered cfg a else .next s

/-! ### Internal FSM steps -/

/-- RESV: resolve the variant (44_authentication R209). -/
def State.resolveStep (cfg : Config) (s : State) : Result :=
  match resolveVariant cfg s.ctx.chal s.ctx.key1 with
  | none => s.sessionEnd (some .variantResolutionFailure)
  | some v => .next { s with ctx := { s.ctx with variant := some v, fsm := .recvch } }

/-- BUSK: derive the bus key (44_authentication R212). -/
def State.busKeyStep (cfg : Config) (s : State) : Result :=
  match s.ctx.variant with
  | none => .fault .variantUnresolved
  | some v =>
    .next { s with ctx := { s.ctx with
      keycheck := busKeyTransform cfg v (concatBlocks s.ctx.key1 s.ctx.key2), fsm := .fetch } }

/-- DTKS: decrypt the title key and end the ACQ (44_authentication R217). -/
def State.decryptStep (cfg : Config) (s : State) : State :=
  match decryptTitleKey cfg s.dk s.ctx.etk with
  | none => s.acqEnd (some .noMatchingPlayerKey) 0xFF
  | some (tk, _) => { s with ctx := { s.ctx with titleKey := tk, enc := true } }.acqEnd none 0x01

/-- The core's own turn: an internal step if one is enabled, else nothing (44_authentication R202, R227;
60_exceptions R257). -/
def internalStep (cfg : Config) (s : State) : Result :=
  if s.status.busy then
    match s.ctx.fsm with
    | .resv => s.resolveStep cfg
    | .busk => s.busKeyStep cfg
    | .dtks => .next (s.decryptStep cfg)
    | .idle => .next s
    | .req => .next s
    | .sendch => .next s
    | .recvk1 => .next s
    | .recvch => .next s
    | .sendk2 => .next s
    | .fetch => .next s
  else .next s

/-! ### Commands -/

/-- AUTH's acceptance: `BUSY <- 1; ACQPH <- 0; StartSession(mode)` (44_authentication R218). -/
def State.startAuth (s : State) (m : SessionMode) : State :=
  { s with status := { s.status with busy := true }, ctx := { s.ctx with acqPhase := .inactive } }.startSession m

/-- ACQ's acceptance: `BUSY <- 1; ENC <- 0; ACQPH <- 1; StartSession(0)` (44_authentication R221, R223). -/
def State.startAcq (s : State) : State :=
  { s with
    status := { s.status with busy := true }
    ctx := { s.ctx with enc := false, acqPhase := .diskSession } }.startSession .disk

/-- `ClearContext()` (44_authentication R224). -/
def State.clearContext (s : State) : State :=
  { s with ctx := Context.reset, status := { s.status with busyWr := false, hostErr := false } }

/-- The states in which an abort invalidates the session: one was granted and is not yet finished
(44_authentication R225). -/
def sessionGranted : FsmState → Bool
  | .idle => false
  | .req => false
  | .sendch => true
  | .recvk1 => true
  | .resv => true
  | .recvch => true
  | .sendk2 => true
  | .busk => true
  | .fetch => true
  | .dtks => false

/-- `Abort()`: CLRCTX while a session command runs (44_authentication R225). The pending call, a function of the
registers (R204), is withdrawn with them. -/
def State.abort (s : State) : State :=
  let t := if sessionGranted s.ctx.fsm then s.emit (.invalidateSession s.ctx.sid) else s
  let u := t.clearContext
  { u with status := { u.status with
      done := true, err := true, errCode := errorCode .aborted, result := 0xFF, anom := false, busy := false } }

/-- `AUTH disk`, `AUTH title`: start one authentication session (44_authentication R218). -/
def execAuth (mode : Imm) (s : State) : Result :=
  .next (s.submit fun s => s.withOperand (mode? mode) fun s m => s.startAuth m)

/-- `ACQ`: start the key acquisition (44_authentication R221). -/
def execAcq (s : State) : Result :=
  .next (s.submit fun s => s.startAcq)

/-- `CLRCTX`: clear the context; while BUSY, abort the running command (44_authentication R225). -/
def execClrctx (s : State) : Result :=
  .next (if s.status.busy then s.abort else s.accept.clearContext.complete none 0x00)

/-- `NOP` (44_authentication R226). -/
def execNop (s : State) : Result :=
  .next (s.submit fun s => s.complete none 0x00)

end Sys2Proof.Machine
end

