-- ==== Sys2Proof/Machine/Descrambler.lean ====
section
/-! DEFINITION. The SectorDescrambler: DSCR, DESCR (spec/43_descrambler.md). -/

namespace Sys2Proof.Machine

/-- The bytes from the first descrambled one on: one pair step and one accumulation each (43_descrambler R188, R189;
the table is `TAB1`, 93 G17). -/
def descrambleBytes (cfg : Config) : LfsrPair → (acc : Nat) → List Byte → List Byte
  | _, _, [] => []
  | p, acc, v :: vs =>
    let r := pairStep cfg p
    let a := accumulate acc r.1.1 (0xFF ^^^ r.1.2)
    (cfg.tab1 v ^^^ a.1) :: descrambleBytes cfg r.2 a.2 vs

/-- The salted seed: `key[i] ^ sec[0x54 - offset + i]` (43_descrambler R187). -/
def saltedSeed (sec : Nat → Byte) (key : Block) (offset : Nat) : Block :=
  key.xor (Block.ofBytesAt sec (0x54 - offset))

/-- How many bytes a descrambling rewrites (43_descrambler R189). -/
def descrambledLength : Nat := 1920

/-- `SEC <- Descramble(SEC, key, offset)` for an offset of 0..0x54: the 1920 bytes from `0x80 - offset` on
(43_descrambler R189). -/
def State.descramble (cfg : Config) (s : State) (key : Block) (offset : Nat) : State :=
  s.store (secBase + (0x80 - offset))
    (descrambleBytes cfg (pairSeed (saltedSeed s.sec key offset)) 0
      (s.mem.readRange (secBase + (0x80 - offset)) descrambledLength))

/-- `DSCR rs, offset`: descramble SEC with the key `BR[rs]`; an offset above 0x54 is SectorBounds
(43_descrambler R190, R191). -/
def execDscr (rs : BrIndex) (offset : Imm) (s : State) : Result :=
  .next (s.submit fun s =>
    if offsetAnomaly offset then (s.raise .sectorBounds 0x00).markAnomaly offset
    else ((s.descramble Config.platform (s.readBR rs) offset.toNat).complete none 0x00).markAnomaly offset)

/-- `DESCR offset`: descramble SEC with the session's title key, a no-op while ENC is 0; with ENC 1 an offset above
0x54 is SectorBounds (43_descrambler R190, R192; 60_exceptions R248). -/
def execDescr (offset : Imm) (s : State) : Result :=
  .next (s.submit fun s =>
    if !s.ctx.enc then (s.complete none 0x00).markAnomaly offset
    else if offsetAnomaly offset then (s.raise .sectorBounds 0xFF).markAnomaly offset
    else ((s.descramble Config.platform s.ctx.titleKey offset.toNat).complete none 0x01).markAnomaly offset)

end Sys2Proof.Machine
end

