-- ==== Sys2Proof/Machine/Dispatch.lean ====
section
/-! DEFINITION. One arm per command: the whole of `SubmitCommand` for a word that decodes to it (30_encoding R97,
R101). -/

namespace Sys2Proof.Machine

def exec (i : Instr) (s : State) : Host.Outcome State Fault Refusal :=
  match i with
  | .nop => Sys2Proof.Machine.execNop s
  | .gen rs len => Sys2Proof.Machine.execGen rs len s
  | .bc rd cs var => Sys2Proof.Machine.execBc rd cs var s
  | .k1t rd cs var => Sys2Proof.Machine.execK1t rd cs var s
  | .k2t rd cs var => Sys2Proof.Machine.execK2t rd cs var s
  | .bkt rd cs var => Sys2Proof.Machine.execBkt rd cs var s
  | .findv cs ra => Sys2Proof.Machine.execFindv cs ra s
  | .initch cd => Sys2Proof.Machine.execInitch cd s
  | .cat cd ra rb => Sys2Proof.Machine.execCat cd ra rb s
  | .mix rd rs inv => Sys2Proof.Machine.execMix rd rs inv s
  | .lddk rd off => Sys2Proof.Machine.execLddk rd off s
  | .dtk rd rs => Sys2Proof.Machine.execDtk rd rs s
  | .xdk rs => Sys2Proof.Machine.execXdk rs s
  | .xbk rd rs => Sys2Proof.Machine.execXbk rd rs s
  | .dscr rs offset => Sys2Proof.Machine.execDscr rs offset s
  | .auth mode => Sys2Proof.Machine.execAuth mode s
  | .acq => Sys2Proof.Machine.execAcq s
  | .descr offset => Sys2Proof.Machine.execDescr offset s
  | .clrctx => Sys2Proof.Machine.execClrctx s

end Sys2Proof.Machine
end

