-- ==== Sys2Proof/Machine/HostPort.lean ====
section
/-! DEFINITION. The command port and what each input does to the core: the fetch of a command word is its CMD write
(10_state R27, R34; 20_memory R63; 30_encoding R98, R101). -/

namespace Sys2Proof.Machine

/-- The host address of CMD (10_state R27). -/
def cmdAddr : HostAddr := 0x1080

/-- `SubmitCommand(w)` (30_encoding R101): the decoded command's meaning, or IllegalCommand (R98). -/
def submitCommand (w : Word) (s : State) : Result :=
  match decode w with
  | .ok i => exec i s
  | .error _ => .next (s.submit State.illegal)

/-- `HostWrite(addr, n, v)` (20_memory R63). -/
def hostWrite (addr : HostAddr) (n : Nat) (v : Word) (s : State) : Result :=
  if legalAccess addr n then
    if addr = cmdAddr then submitCommand v s else .next (s.hostStore addr v)
  else .next s.hostError

/-- Reset: every register at its reset value, the buffers unspecified anew, the pending call withdrawn with no
notification (10_state R40, 70_reset_and_hazards R271, R272). What the outside does next, and what has already left
the core, are not the core's to reset. -/
def State.resetCore (s : State) : State :=
  { State.reset with mem := ⟨s.mem.resets + 1, []⟩, inputs := s.inputs, outputs := s.outputs }

/-- What one input does (00_scope R19; 20_memory R73; 93 U9). -/
def takeInput (i : Input) (s : State) : Result :=
  match i with
  | .hostRead addr n => .next (s.hostRead addr n)
  | .hostWrite addr n v => hostWrite addr n v s
  | .answer a => answerStep Config.platform a s
  | .lateAnswer _ => .next s
  | .coreTurn => internalStep Config.platform s
  | .reset => .next s.resetCore

end Sys2Proof.Machine
end

