-- ==== Sys2Proof/Machine/Step.lean ====
section
/-! DEFINITION. One step of the machine: the next input, or, when the outside does nothing more, the core's own turn
(20_memory R73, 44_authentication R202, R227). -/

namespace Sys2Proof.Machine

/-- One event of the total order. -/
def step (s : State) : Host.Outcome State Fault Refusal :=
  match s.inputs with
  | [] => internalStep Config.platform s
  | i :: rest => takeInput i { s with inputs := rest }

/-- The state in which the next thing that happens is the host's write of the command word to CMD: where this core
fetches its instructions (10_state R27, R34). The bits above `nbits` are 0. -/
def State.withFetchWord (s : State) (nbits w : Nat) : State :=
  { s with inputs := .hostWrite cmdAddr 4 (BitVec.ofNat 32 (w % 2 ^ nbits)) :: s.inputs }

end Sys2Proof.Machine
end

