-- ==== Sys2Proof/Safety.lean ====
section
/-! DEFINITION. The terms claims are stated in: what a command reports and leaves unchanged, which words and accesses
are legal in the spec's own words, the invariant that holds between steps, and the clear forms of the unit functions. -/

namespace Sys2Proof.Machine

/-! ### Frames -/

/-- The buffers read the same at every address. -/
def SameMemory (s t : State) : Prop := ∀ a, t.mem.read a = s.mem.read a

/-- LBA, every context register, the inputs still to come, the outputs and the reset count are unchanged. -/
def SameSurroundings (s t : State) : Prop :=
  t.lba = s.lba ∧ t.ctx = s.ctx ∧ t.inputs = s.inputs ∧ t.outputs = s.outputs ∧ t.mem.resets = s.mem.resets

/-- Only STATUS may differ. -/
def ChangesOnlyStatus (s t : State) : Prop :=
  t.br = s.br ∧ t.cr = s.cr ∧ SameMemory s t ∧ SameSurroundings s t

/-- Besides STATUS, only `BR[rd]` may differ, and its bytes are those of `f`. -/
def WritesOnlyBR (s t : State) (rd : BrIndex) (f : Fin 5 → Byte) : Prop :=
  (∀ i, (t.readBR rd).get i = f i) ∧ (∀ r, r ≠ rd → t.readBR r = s.readBR r) ∧ t.cr = s.cr ∧
    SameMemory s t ∧ SameSurroundings s t

/-- Besides STATUS, only `CR[c]` may differ, and its bytes are those of `f`. -/
def WritesOnlyCR (s t : State) (c : Fin 2) (f : Fin 10 → Byte) : Prop :=
  (∀ i, (t.readCR c).get i = f i) ∧ (∀ d, d ≠ c → t.readCR d = s.readCR d) ∧ t.br = s.br ∧
    SameMemory s t ∧ SameSurroundings s t

/-- Besides STATUS, only the `len` bytes of memory from `base` on may differ, and they are those of `f`. -/
def WritesOnlyBytes (s t : State) (base len : Nat) (f : Nat → Byte) : Prop :=
  (∀ k, k < len → t.mem.read (base + k) = f k) ∧
    (∀ a, a < base ∨ base + len ≤ a → t.mem.read a = s.mem.read a) ∧
    t.br = s.br ∧ t.cr = s.cr ∧ SameSurroundings s t

/-- What a completed command leaves in STATUS: the sticky bits as they were, everything else as given
(10_state R28, 30_encoding R107). -/
def Reports (s t : State) (err : Bool) (code result : Byte) (anom : Bool) : Prop :=
  t.status = ⟨false, true, err, anom, s.status.busyWr, s.status.hostErr, code, result⟩

/-! ### Command words and host accesses in the spec's own terms -/

/-- A row of the opcode map: match, mask and the immediate's legal range (30_encoding R94, R97). -/
structure CommandRow where
  mnemonic : String
  matchWord : Word
  mask : Word
  immMin : Nat
  immMax : Nat
deriving DecidableEq, Repr

/-- The rows of 30_encoding R97, match and mask as R97 writes them, immediates as R94 gives them. -/
def commandRows : List CommandRow :=
  [⟨"NOP", 0x00000000, 0xFFFFFFFF, 0, 0⟩, ⟨"GEN", 0x04000000, 0xFFFC7800, 1, 32⟩,
    ⟨"BC", 0x08000000, 0xFC037FFF, 0, 0⟩, ⟨"K1T", 0x0C000000, 0xFC037FFF, 0, 0⟩,
    ⟨"K2T", 0x10000000, 0xFC037FFF, 0, 0⟩, ⟨"BKT", 0x14000000, 0xFC037FFF, 0, 0⟩,
    ⟨"FINDV", 0x18000000, 0xFFFF0FFF, 0, 0⟩, ⟨"INITCH", 0x1C000000, 0xFFFBFFFF, 0, 0⟩,
    ⟨"CAT", 0x20000000, 0xFFF80FFF, 0, 0⟩, ⟨"MIX", 0x24000000, 0xFFE077FF, 0, 0⟩,
    ⟨"LDDK", 0x28000000, 0xFFE3F800, 0, 2043⟩, ⟨"DTK", 0x2C000000, 0xFFE07FFF, 0, 0⟩,
    ⟨"XDK", 0x30000000, 0xFFFC7FFF, 0, 0⟩, ⟨"XBK", 0x34000000, 0xFFE07FFF, 0, 0⟩,
    ⟨"DSCR", 0x38000000, 0xFFFC7800, 0, 2047⟩, ⟨"AUTH", 0x40000000, 0xFFFFFFFE, 0, 1⟩,
    ⟨"ACQ", 0x44000000, 0xFFFFFFFF, 0, 0⟩, ⟨"DESCR", 0x48000000, 0xFFFFF800, 0, 2047⟩,
    ⟨"CLRCTX", 0x4C000000, 0xFFFFFFFF, 0, 0⟩]

/-- The table's name of a command. -/
def mnemonicOf : Instr → String
  | .nop => "NOP"
  | .gen _ _ => "GEN"
  | .bc _ _ _ => "BC"
  | .k1t _ _ _ => "K1T"
  | .k2t _ _ _ => "K2T"
  | .bkt _ _ _ => "BKT"
  | .findv _ _ => "FINDV"
  | .initch _ => "INITCH"
  | .cat _ _ _ => "CAT"
  | .mix _ _ _ => "MIX"
  | .lddk _ _ => "LDDK"
  | .dtk _ _ => "DTK"
  | .xdk _ => "XDK"
  | .xbk _ _ => "XBK"
  | .dscr _ _ => "DSCR"
  | .auth _ => "AUTH"
  | .acq => "ACQ"
  | .descr _ => "DESCR"
  | .clrctx => "CLRCTX"

/-- A word is the command of a row: "`w & mask == match`, and then the IMM range of rule R94 holds" (30_encoding
R97). -/
def CommandRow.fits (r : CommandRow) (w : Word) : Prop :=
  w &&& r.mask = r.matchWord ∧ r.immMin ≤ w.toNat % 2048 ∧ w.toNat % 2048 ≤ r.immMax

/-- A word is illegal: it is the command of no row (30_encoding R97, R98). -/
def IllegalWord (w : Word) : Prop := ∀ r ∈ commandRows, ¬ r.fits w

/-- The reserved addresses (10_state R30, R31, R33). -/
def ReservedAddress (a : Nat) : Prop :=
  (0x1020 ≤ a ∧ a < 0x1060 ∧ 5 ≤ (a - 0x1020) % 8) ∨ (0x1060 ≤ a ∧ a < 0x1080 ∧ 10 ≤ (a - 0x1060) % 16) ∨
    (0x108C ≤ a ∧ a ≤ 0x109F) ∨ (0x10AA ≤ a ∧ a ≤ 0x10AF) ∨ (0x10BA ≤ a ∧ a ≤ 0x10BF) ∨
    (0x10C5 ≤ a ∧ a ≤ 0x10C7) ∨ (0x10CD ≤ a ∧ a ≤ 0x10CF) ∨ (0x10D5 ≤ a ∧ a ≤ 0x10D7) ∨
    (0x10DD ≤ a ∧ a ≤ 0x10DF) ∨ (0x10E5 ≤ a ∧ a ≤ 0x10E7) ∨ 0x10F0 ≤ a

/-- The addresses of the word registers CMD, STATUS, LBA, SID (20_memory R62). -/
def WordRegisterAddress (a : Nat) : Prop := a = 0x1080 ∨ a = 0x1084 ∨ a = 0x1088 ∨ a = 0x10EC

/-- The byte regions (20_memory R62). -/
def ByteRegion (a : Nat) : Prop := a ≤ 0x107F ∨ (0x10A0 ≤ a ∧ a ≤ 0x10EB)

/-- A legal access (20_memory R62). -/
def LegalAccess (a n : Nat) : Prop :=
  (n = 1 ∧ ByteRegion a) ∨ (n = 4 ∧ WordRegisterAddress a) ∨
    (ReservedAddress a ∧ (n = 1 ∨ (n = 4 ∧ a % 4 = 0)))

/-- A read-only location: STATUS, SID or a byte-wide context register (10_state R28, R31; 20_memory R64). -/
def ReadOnlyAddress (a : Nat) : Prop :=
  a = 0x1084 ∨ a = 0x10EC ∨ (0x10A0 ≤ a ∧ a ≤ 0x10EB ∧ ¬ ReservedAddress a)

/-- A location the host can write: a byte of a buffer or operand register (`n = 1`), or LBA (`n = 4`)
(10_state R33). -/
def WritablePlace (a n : Nat) : Prop :=
  (n = 1 ∧ a < 0x1080 ∧ ¬ ReservedAddress a) ∨ (n = 4 ∧ a = 0x1088)

/-- What a host write of width `n` stores: the low byte of `v`, or all of it. -/
def storedValue (n : Nat) (v : Word) : Word := if n = 1 then (v.setWidth 8).setWidth 32 else v

/-- A read of the address gives the byte, zero-filled to a word (log 19). -/
def ReadsByte (s : State) (a : Nat) (b : Byte) : Prop := readLocation s (BitVec.ofNat 16 a) = b.setWidth 32

/-- What a read gives at the address of every buffer byte and register but VARIANT, FSM and FLAGS, whose bits
`Obligations.StatusWordLayout` gives (10_state R27, R31, R33). -/
def ReadsFollowTheMap (s : State) : Prop :=
  (∀ a, a < 0x1020 → ReadsByte s a (s.mem.read a)) ∧
    (∀ (r : BrIndex) (i : Fin 5), ReadsByte s (0x1020 + 8 * r.toNat + i.val) ((s.readBR r).get i)) ∧
    (∀ (c : Fin 2) (i : Fin 10), ReadsByte s (0x1060 + 16 * c.val + i.val) ((s.readCR c).get i)) ∧
    (∀ i : Fin 10, ReadsByte s (0x10A0 + i.val) (s.ctx.chal.get i) ∧ ReadsByte s (0x10B0 + i.val) (s.ctx.dchal.get i)) ∧
    (∀ i : Fin 5, ReadsByte s (0x10C0 + i.val) (s.ctx.key1.get i) ∧ ReadsByte s (0x10C8 + i.val) (s.ctx.key2.get i) ∧
      ReadsByte s (0x10D0 + i.val) (s.ctx.keycheck.get i) ∧ ReadsByte s (0x10D8 + i.val) (s.ctx.etk.get i) ∧
      ReadsByte s (0x10E0 + i.val) (s.ctx.titleKey.get i)) ∧
    ReadsByte s 0x10E9 s.ctx.attempts ∧ readLocation s 0x1080 = 0 ∧ readLocation s 0x1084 = statusWord s ∧
    readLocation s 0x1088 = s.lba ∧ readLocation s 0x10EC = s.ctx.sid

/-! ### The collaborator's answers -/

/-- The answer is one of the call's answer type, in the words of 44_authentication R203. -/
def AnswersCall : Call → Answer → Prop
  | .openSession, a => a = .noChannel ∨ a = .grantFail ∨ ∃ v, a = .sid v
  | .sendChallenge _ _, a => a = .ack
  | .receiveKey1 _, a => ∃ k, a = .block k
  | .receiveChallenge _, a => ∃ c, a = .challenge c
  | .sendKey2 _ _, a => a = .ok ∨ a = .authFailure
  | .readDiskKeyStructure _, a => (∃ d, a = .diskData d) ∨ a = .error
  | .readTitleKeyStructure _ _, a => (∃ d, a = .titleData d) ∨ a = .error

/-! ### The invariant between steps -/

/-- STATUS describes the last command: nothing is reported while a session command runs, and ERR and ERRCODE agree
on an outcome of 60_exceptions R241 (10_state R28, 30_encoding R101, R107). -/
def StatusSound (t : Status) : Prop :=
  (t.busy = true → t.done = false ∧ t.err = false ∧ t.result = 0 ∧ t.anom = false) ∧
    ∃ e : Option CoreError, t.errCode = outcomeCode e ∧ t.err = e.isSome

/-- The FSM states in which the session's variant is resolved (44_authentication R209-R215). -/
def variantInUse : FsmState → Bool
  | .recvch => true
  | .sendk2 => true
  | .busk => true
  | .fetch => true
  | .idle => false
  | .req => false
  | .sendch => false
  | .recvk1 => false
  | .resv => false
  | .dtks => false

/-- The FSM states in which the session's variant is not yet resolved (44_authentication R205-R209). -/
def variantSought : FsmState → Bool
  | .req => true
  | .sendch => true
  | .recvk1 => true
  | .resv => true
  | .idle => false
  | .recvch => false
  | .sendk2 => false
  | .busk => false
  | .fetch => false
  | .dtks => false

/-- The session registers agree with each other (44_authentication R231 (a), (c), (d), (e); R216; R223). -/
structure SessionSound (cfg : Config) (s : State) : Prop where
  idle_iff : s.ctx.fsm = .idle ↔ s.status.busy = false
  phase_busy : s.ctx.acqPhase ≠ .inactive → s.status.busy = true
  attempts_req : s.ctx.fsm = .req → s.ctx.attempts.toNat < grantMaxAttempts cfg
  attempts_le : s.ctx.attempts.toNat ≤ grantMaxAttempts cfg
  variant_known : variantInUse s.ctx.fsm = true → s.ctx.variant.isSome = true
  variant_unknown : variantSought s.ctx.fsm = true → s.ctx.variant = none
  disk_mode : s.ctx.acqPhase = .diskSession → s.ctx.mode = .disk
  title_mode : s.ctx.acqPhase = .titleSession → s.ctx.mode = .title
  decrypting : s.ctx.fsm = .dtks ↔ s.ctx.acqPhase = .decryption
  enc_phase : s.ctx.enc = true → s.ctx.acqPhase = .inactive

/-- The invariant: memory in its canonical form, STATUS sound, the session registers sound. -/
structure State.Sound (s : State) : Prop where
  memory : s.mem.wf
  status : StatusSound s.status
  session : SessionSound Config.platform s

/-! ### The clear forms of the unit functions -/

/-- The generator after `k` output bits (40_bitstream R124). -/
def generatorAfterBits (g : Generator) : Nat → Generator
  | 0 => g
  | k + 1 => (stepBit (generatorAfterBits g k)).2

/-- The generator after `k` output bytes (40_bitstream R126). -/
def generatorAfterBytes (g : Generator) : Nat → Generator
  | 0 => g
  | k + 1 => (nextByte (generatorAfterBytes g k)).2

/-- The LFSR pair after `k` steps (42_keyderivation R163). -/
def pairAfter (cfg : Config) (p : LfsrPair) : Nat → LfsrPair
  | 0 => p
  | k + 1 => (pairStep cfg (pairAfter cfg p k)).2

/-- The descrambler's accumulator before byte `k` (43_descrambler R189). -/
def descrambleAcc (cfg : Config) (p : LfsrPair) : Nat → Nat
  | 0 => 0
  | k + 1 =>
    let f := (pairStep cfg (pairAfter cfg p k)).1
    (descrambleAcc cfg p k + f.1.toNat + (0xFF ^^^ f.2).toNat) / 256

/-- The byte that descrambling XORs onto the substituted byte `k` (43_descrambler R189). -/
def descrambleKey (cfg : Config) (p : LfsrPair) (k : Nat) : Byte :=
  let f := (pairStep cfg (pairAfter cfg p k)).1
  BitVec.ofNat 8 (descrambleAcc cfg p k + f.1.toNat + (0xFF ^^^ f.2).toNat)

/-- The pair's seed for a sector: byte `i` is `key[i] ^ sec[0x54 - offset + i]` (43_descrambler R187). -/
def sectorSeed (sec : Nat → Byte) (key : Block) (offset : Nat) : Block :=
  Block.ofFn fun i => key.get i ^^^ sec (0x54 - offset + i.val)

/-- Byte `k` of a descrambled range that starts at `0x80 - offset` (43_descrambler R189). -/
def descrambledByte (cfg : Config) (sec : Nat → Byte) (key : Block) (offset k : Nat) : Byte :=
  cfg.tab1 (sec (0x80 - offset + k)) ^^^ descrambleKey cfg (pairSeed (sectorSeed sec key offset)) k

/-- The key byte `key[4 - i mod 5]` of the bus-key XOR (42_keyderivation R175). -/
def busKeyByte (bk : Block) (i : Nat) : Byte := bk.get ⟨4 - i % 5, by omega⟩

/-- Player key `j` is confirmed by a disk key (42_keyderivation R172). -/
def Confirms (cfg : Config) (dk : Nat → Byte) (j : Fin 10) : Prop :=
  let pre := mix cfg (Block.ofBytesAt dk (cfg.playerKeys j).offset.val) (cfg.playerKeys j).key false
  mix cfg (Block.ofBytesAt dk 0) pre false = pre

/-- The reference form of `r0`, bit-reversed: its output byte (42_keyderivation R164). -/
def reversedOutput (r : Word) : Byte :=
  (((((((r >>> 8) ^^^ r) >>> 1) ^^^ r) >>> 3) ^^^ r) >>> 7).setWidth 8

/-- The reference form of `r0`, bit-reversed, after `k` steps (42_keyderivation R164). -/
def reversedAfter (r : Word) : Nat → Word
  | 0 => r
  | k + 1 =>
    let q := reversedAfter r k
    (q >>> 8) ||| ((reversedOutput q).setWidth 32 <<< 24)

/-- `k` steps, ending at the first stop. -/
def runSteps : Nat → State → Result
  | 0, s => .next s
  | k + 1, s =>
    match step s with
    | .next t => runSteps k t
    | .fault f => .fault f
    | .refused r => .refused r

/-- The answers of one session of AUTH in title-key mode in which every step succeeds, each internal step taken when
it is enabled (44_authentication R206-R212, R215). -/
def titleSessionInputs (sid : Word) (k1 : Block) (c : Challenge) (d : Block) : List Input :=
  [.answer (.sid sid), .answer .ack, .answer (.block k1), .coreTurn, .answer (.challenge c), .answer .ok,
    .coreTurn, .answer (.titleData d)]

end Sys2Proof.Machine
end

