-- ==== Sys2Proof/Certificates/Slice0/Obligations.lean ====
section
/-! DEFINITION. The statements for the provers, each with the rule of spec/ it says. `Config.platform` is opaque: a
statement about it holds for every configuration. -/

open Sys2Proof Sys2Proof.Machine

/-! ### Encoding and decoding -/

/-- Every well-formed command's word decodes to that command (30_encoding R91, R92, R97). -/
def Obligations.EncodedCommandsDecodeToThemselves : Prop :=
  ∀ i : Instr, i.wellFormed = true → decode (encode i) = .ok i

/-- Every word that decodes is the word of the well-formed command it decodes to: no bit of a word is ignored
(30_encoding R91, R92, R97). -/
def Obligations.DecodedWordsEncodeToThemselves : Prop :=
  ∀ (w : Word) (i : Instr), decode w = .ok i → i.wellFormed = true ∧ encode i = w

/-- The words that decode are the words of the match and mask rows of 30_encoding R97 with the immediate ranges of
R94, each to a command of its row's mnemonic. -/
def Obligations.LegalWordsAreTheOpcodeMap : Prop :=
  (∀ (w : Word) (i : Instr), decode w = .ok i → ∃ r ∈ commandRows, r.mnemonic = mnemonicOf i ∧ r.fits w) ∧
    ∀ (w : Word) (r : CommandRow), r ∈ commandRows → r.fits w → ∃ i, decode w = .ok i ∧ mnemonicOf i = r.mnemonic

/-- The sixteen encoding examples of 30_encoding R106. -/
def Obligations.ManualEncodingExamplesDecode : Prop :=
  decode 0x0400001E = .ok (.gen 0 30) ∧ decode 0x0CE40000 = .ok (.k1t 1 0 7) ∧
    decode 0x14E88000 = .ok (.bkt 2 1 7) ∧ decode 0x18001000 = .ok (.findv 0 1) ∧
    decode 0x1C040000 = .ok (.initch 1) ∧ decode 0x2004A000 = .ok (.cat 1 1 2) ∧
    decode 0x240E0800 = .ok (.mix 3 4 true) ∧ decode 0x28100014 = .ok (.lddk 4 20) ∧
    decode 0x2C0E0000 = .ok (.dtk 3 4) ∧ decode 0x30010000 = .ok (.xdk 2) ∧
    decode 0x34110000 = .ok (.xbk 4 2) ∧ decode 0x38018000 = .ok (.dscr 3 0) ∧
    decode 0x40000001 = .ok (.auth 1) ∧ decode 0x44000000 = .ok .acq ∧
    decode 0x48000010 = .ok (.descr 0x10) ∧ decode 0x4C000000 = .ok .clrctx

/-- An accepted illegal word (30_encoding R98: a reserved opcode, or the word of no row of the opcode map) completes at
once with IllegalCommand and changes no state except STATUS. -/
def Obligations.IllegalWordsChangeOnlyStatus : Prop :=
  (∀ w : Word, (w.toNat / 2 ^ 26 = 0x0F ∨ 0x14 ≤ w.toNat / 2 ^ 26) → IllegalWord w) ∧
    ∀ (s : State) (w : Word) (rest : List Input), s.inputs = .hostWrite 0x1080 4 w :: rest →
      s.status.busy = false → IllegalWord w →
        step s = .next { s with
          inputs := rest
          status := { s.status with done := true, err := true, errCode := 0x10, result := 0x00, anom := false } }

/-- A command with an operand field out of its range is illegal too, as a term (30_encoding R93, R94, R98). That a term
no word decodes to has this meaning is the model's choice (log 12). -/
def Obligations.IllFormedCommandsAreIllegal : Prop :=
  ∀ (i : Instr) (s : State), i.wellFormed = false → s.status.busy = false →
    ∃ t, exec i s = .next t ∧ ChangesOnlyStatus s t ∧ Reports s t true 0x10 0x00 false

/-- A CMD write of a word that decodes runs the decoded command on the state without that input: the step adds nothing
around `exec` but taking the input off the queue (10_state R27, 30_encoding R101). The queue is the model's form (log 1). -/
def Obligations.StepRunsTheDecodedCommand : Prop :=
  ∀ (s : State) (w : Word) (rest : List Input) (i : Instr), s.inputs = .hostWrite 0x1080 4 w :: rest →
    decode w = .ok i → step s = exec i { s with inputs := rest }

/-- While BUSY, every command but CLRCTX is dropped and sets BUSYWR, and does nothing else (30_encoding R101,
20_memory R67). -/
def Obligations.BusyCoreDropsEveryOtherCommand : Prop :=
  ∀ (i : Instr) (s : State), i ≠ .clrctx → s.status.busy = true →
    exec i s = .next { s with status := { s.status with busyWr := true } }

/-! ### The commands -/

/-- NOP changes only STATUS, which it clears to DONE (44_authentication R226). -/
def Obligations.NopOnlyCompletes : Prop :=
  ∀ s : State, s.status.busy = false →
    ∃ t, exec .nop s = .next t ∧ ChangesOnlyStatus s t ∧ Reports s t false 0x00 0x00 false

/-- GEN fills `KS[0..len-1]` with the generator's output and changes nothing else (40_bitstream R128). -/
def Obligations.GenWritesTheKeystream : Prop :=
  ∀ (s : State) (rs : BrIndex) (len : Imm), s.status.busy = false → 1 ≤ len.toNat → len.toNat ≤ 32 →
    ∃ t, exec (.gen rs len) s = .next t ∧
      WritesOnlyBytes s t 0x1000 len.toNat (fun k => (generate (s.readBR rs) len.toNat).getD k 0) ∧
      Reports s t false 0x00 0x00 false

/-- BC, K1T, K2T and BKT write `BR[rd]` with the cipher of `CR[cs]`: BC raw, the others on the challenge gathered by
their permutation, K2T and BKT under the remapped variant (41_blockcipher R144-R146, R148-R150). -/
def Obligations.CipherCommandsWriteTheirDestination : Prop :=
  ∀ (s : State) (rd : BrIndex) (cs : CrField) (c : Fin 2) (var : Variant), s.status.busy = false →
    cs.toNat = c.val →
      let x := s.readCR c
      (∃ t, exec (.bc rd cs var) s = .next t ∧
        WritesOnlyBR s t rd (cipher Config.platform var x).get ∧ Reports s t false 0x00 0x00 false) ∧
      (∃ t, exec (.k1t rd cs var) s = .next t ∧
        WritesOnlyBR s t rd (cipher Config.platform var
          ⟨⟨x.get 1, x.get 3, x.get 0, x.get 7, x.get 5⟩, ⟨x.get 2, x.get 9, x.get 6, x.get 4, x.get 8⟩⟩).get ∧
        Reports s t false 0x00 0x00 false) ∧
      (∃ t, exec (.k2t rd cs var) s = .next t ∧
        WritesOnlyBR s t rd (cipher Config.platform (Config.platform.permv1 var)
          ⟨⟨x.get 6, x.get 1, x.get 9, x.get 3, x.get 8⟩, ⟨x.get 5, x.get 7, x.get 4, x.get 0, x.get 2⟩⟩).get ∧
        Reports s t false 0x00 0x00 false) ∧
      (∃ t, exec (.bkt rd cs var) s = .next t ∧
        WritesOnlyBR s t rd (cipher Config.platform (Config.platform.permv2 var)
          ⟨⟨x.get 4, x.get 0, x.get 3, x.get 5, x.get 7⟩, ⟨x.get 2, x.get 8, x.get 6, x.get 1, x.get 9⟩⟩).get ∧
        Reports s t false 0x00 0x00 false)

/-- FINDV writes no register; RESULT is the resolved variant, or 0xFF with VariantResolutionFailure
(41_blockcipher R152). -/
def Obligations.FindvReportsTheResolvedVariant : Prop :=
  ∀ (s : State) (cs : CrField) (c : Fin 2) (ra : BrIndex), s.status.busy = false → cs.toNat = c.val →
    ∃ t, exec (.findv cs ra) s = .next t ∧ ChangesOnlyStatus s t ∧
      match resolveVariant Config.platform (s.readCR c) (s.readBR ra) with
      | some v => Reports s t false 0x00 (v.setWidth 8) false
      | none => Reports s t true 0x03 0xFF false

/-- ResolveVariant answers the lowest variant whose Key1Transform equals the received key1 in all five bytes, and none
when there is none (41_blockcipher R151). -/
def Obligations.ResolveVariantPicksTheLowestMatch : Prop :=
  ∀ (cfg : Config) (ch : Challenge) (k1 : Block),
    (∀ v : Variant, resolveVariant cfg ch k1 = some v ↔
      key1Transform cfg v ch = k1 ∧ ∀ u : Variant, u.toNat < v.toNat → key1Transform cfg u ch ≠ k1) ∧
    (resolveVariant cfg ch k1 = none ↔ ∀ v : Variant, key1Transform cfg v ch ≠ k1)

/-- INITCH sets byte `i` of `CR[cd]` to `i` and changes nothing else (41_blockcipher R153). -/
def Obligations.InitchWritesTheInitialChallenge : Prop :=
  ∀ (s : State) (cd : CrField) (c : Fin 2), s.status.busy = false → cd.toNat = c.val →
    ∃ t, exec (.initch cd) s = .next t ∧ WritesOnlyCR s t c (fun i => BitVec.ofNat 8 i.val) ∧
      Reports s t false 0x00 0x00 false

/-- CAT concatenates `BR[ra]` and `BR[rb]` into `CR[cd]` and changes nothing else (41_blockcipher R154). -/
def Obligations.CatConcatenatesTwoBlocks : Prop :=
  ∀ (s : State) (cd : CrField) (c : Fin 2) (ra rb : BrIndex), s.status.busy = false → cd.toNat = c.val →
    ∃ t, exec (.cat cd ra rb) s = .next t ∧
      WritesOnlyCR s t c (fun i =>
        if h : i.val < 5 then (s.readBR ra).get ⟨i.val, h⟩ else (s.readBR rb).get ⟨i.val - 5, by omega⟩) ∧
      Reports s t false 0x00 0x00 false

/-- MIX writes `BR[rd]` with the mix of its old value under the seed `BR[rs]`, both read before the write
(42_keyderivation R170, 30_encoding R96). -/
def Obligations.MixWritesTheMixedKey : Prop :=
  ∀ (s : State) (rd rs : BrIndex) (inv : Bool), s.status.busy = false →
    ∃ t, exec (.mix rd rs inv) s = .next t ∧
      WritesOnlyBR s t rd (mix Config.platform (s.readBR rd) (s.readBR rs) inv).get ∧
      Reports s t false 0x00 0x00 false

/-- LDDK loads `DK[off .. off+4]` into `BR[rd]` (42_keyderivation R171). A byte nothing has written since reset is the
free value of log 3. -/
def Obligations.LddkLoadsFiveDiskKeyBytes : Prop :=
  ∀ (s : State) (rd : BrIndex) (off : Imm), s.status.busy = false → off.toNat ≤ 2043 →
    ∃ t, exec (.lddk rd off) s = .next t ∧
      WritesOnlyBR s t rd (fun i => s.mem.read (0x0800 + (off.toNat + i.val))) ∧
      Reports s t false 0x00 0x00 false

/-- DTK writes `BR[rd]` with the decrypted title key and RESULT with the confirmed key's index, or fails with
NoMatchingPlayerKey and changes only STATUS (42_keyderivation R173). -/
def Obligations.DtkWritesTheTitleKeyOrFails : Prop :=
  ∀ (s : State) (rd rs : BrIndex), s.status.busy = false →
    ∃ t, exec (.dtk rd rs) s = .next t ∧
      match decryptTitleKey Config.platform (fun i => s.mem.read (0x0800 + i)) (s.readBR rs) with
      | some (tk, j) => WritesOnlyBR s t rd tk.get ∧ Reports s t false 0x00 (BitVec.ofNat 8 j.val) false
      | none => ChangesOnlyStatus s t ∧ Reports s t true 0x06 0xFF false

/-- decryptTitleKey takes the first player key, in table order, that the disk key confirms, and fails when it confirms
none (42_keyderivation R172). -/
def Obligations.DecryptTitleKeyTakesTheFirstConfirmed : Prop :=
  ∀ (cfg : Config) (dk : Nat → Byte) (etk : Block),
    (∀ j : Fin 10, Confirms cfg dk j → (∀ l : Fin 10, l < j → ¬ Confirms cfg dk l) →
      decryptTitleKey cfg dk etk =
        some (mix cfg etk
          (mix cfg (Block.ofBytesAt dk (cfg.playerKeys j).offset.val) (cfg.playerKeys j).key false) true, j)) ∧
    ((∀ j : Fin 10, ¬ Confirms cfg dk j) → decryptTitleKey cfg dk etk = none)

/-- XDK XORs byte `i` of the whole of DK with `bk[4 - i mod 5]` and changes nothing else, and a second XDK with the same
key restores every byte of memory (42_keyderivation R175). -/
def Obligations.XdkXorsTheDiskKeyAndUndoesItself : Prop :=
  ∀ (s : State) (rs : BrIndex), s.status.busy = false →
    ∃ t, exec (.xdk rs) s = .next t ∧
      WritesOnlyBytes s t 0x0800 2048 (fun i => s.mem.read (0x0800 + i) ^^^ busKeyByte (s.readBR rs) i) ∧
      Reports s t false 0x00 0x00 false ∧ ∃ u, exec (.xdk rs) t = .next u ∧ SameMemory s u

/-- XBK XORs byte `i` of `BR[rd]` with byte `4 - i` of `BR[rs]`, both read before the write (42_keyderivation R176,
R177; 30_encoding R96). -/
def Obligations.XbkXorsTheTitleKey : Prop :=
  ∀ (s : State) (rd rs : BrIndex), s.status.busy = false →
    ∃ t, exec (.xbk rd rs) s = .next t ∧
      WritesOnlyBR s t rd (fun i => (s.readBR rd).get i ^^^ (s.readBR rs).get (4 - i)) ∧
      Reports s t false 0x00 0x00 false

/-- DSCR with an offset of 0..0x54 rewrites exactly the 1920 bytes of SEC from `0x80 - offset` on, each with the
substituted byte XOR the keystream of the salted seed, and nothing else (43_descrambler R187-R189, R191). -/
def Obligations.DscrDescramblesTheSector : Prop :=
  ∀ (s : State) (rs : BrIndex) (offset : Imm), s.status.busy = false → offset.toNat ≤ 0x54 →
    ∃ t, exec (.dscr rs offset) s = .next t ∧
      WritesOnlyBytes s t (0x80 - offset.toNat) 1920
        (descrambledByte Config.platform (fun i => s.mem.read i) (s.readBR rs) offset.toNat) ∧
      Reports s t false 0x00 0x00 false

/-- DESCR is a no-op with RESULT 0 while ENC is 0 (ANOM still records the offset), and with ENC 1 and an offset of
0..0x54 descrambles SEC with TITLEKEY and reports RESULT 1 (43_descrambler R192). -/
def Obligations.DescrDescramblesOnlyWhenEncrypted : Prop :=
  ∀ (s : State) (offset : Imm), s.status.busy = false →
    (s.ctx.enc = false →
      ∃ t, exec (.descr offset) s = .next t ∧ ChangesOnlyStatus s t ∧
        Reports s t false 0x00 0x00 (decide (0x54 < offset.toNat))) ∧
    (s.ctx.enc = true → offset.toNat ≤ 0x54 →
      ∃ t, exec (.descr offset) s = .next t ∧
        WritesOnlyBytes s t (0x80 - offset.toNat) 1920
          (descrambledByte Config.platform (fun i => s.mem.read i) s.ctx.titleKey offset.toNat) ∧
        Reports s t false 0x00 0x01 false)

/-- An offset above 0x54 sets ANOM, raises SectorBounds and leaves SEC and everything but STATUS unchanged: DSCR
always, DESCR with ENC 1 (43_descrambler R190-R192). -/
def Obligations.OffsetsAboveTheRangeAreSectorBounds : Prop :=
  ∀ (s : State) (rs : BrIndex) (offset : Imm), s.status.busy = false → 0x54 < offset.toNat →
    (∃ t, exec (.dscr rs offset) s = .next t ∧ ChangesOnlyStatus s t ∧ Reports s t true 0x12 0x00 true) ∧
    (s.ctx.enc = true →
      ∃ t, exec (.descr offset) s = .next t ∧ ChangesOnlyStatus s t ∧ Reports s t true 0x12 0xFF true)

/-- AUTH starts one session in the mode of its immediate: BUSY, ACQPH 0, VARIANT unresolved, ATTEMPTS 0, FSM in REQ,
and nothing else changes but the STATUS bits that acceptance clears (44_authentication R205, R218). -/
def Obligations.AuthStartsASession : Prop :=
  ∀ (s : State) (m : Imm), s.status.busy = false → m.toNat ≤ 1 →
    exec (.auth m) s = .next { s with
      status := { s.status with busy := true, done := false, err := false, errCode := 0x00, result := 0x00, anom := false }
      ctx := { s.ctx with
        acqPhase := .inactive, mode := if m.toNat = 0 then .disk else .title, variant := none, attempts := 0, fsm := .req } }

/-- ACQ clears ENC and starts the disk-key session of phase 1 (44_authentication R205, R221, R223). -/
def Obligations.AcqStartsTheDiskKeySession : Prop :=
  ∀ s : State, s.status.busy = false →
    exec .acq s = .next { s with
      status := { s.status with busy := true, done := false, err := false, errCode := 0x00, result := 0x00, anom := false }
      ctx := { s.ctx with
        enc := false, acqPhase := .diskSession, mode := .disk, variant := none, attempts := 0, fsm := .req } }

/-- CLRCTX clears the context registers and the sticky bits and leaves BR, CR, the buffers and LBA. While BUSY it also
aborts: `invalidateSession(SID)` goes out in the states in which a session was granted and is not yet finished, and
STATUS reports Aborted (44_authentication R224, R225). -/
def Obligations.ClrctxClearsTheContextAndAborts : Prop :=
  ∀ s : State,
    let cleared : Context :=
      { chal := ⟨zeroBlock, zeroBlock⟩, dchal := ⟨zeroBlock, zeroBlock⟩, key1 := zeroBlock, key2 := zeroBlock
        keycheck := zeroBlock, etk := zeroBlock, titleKey := zeroBlock, variant := none, attempts := 0, fsm := .idle
        enc := false, mode := .disk, acqPhase := .inactive, sid := 0 }
    (s.status.busy = false →
      exec .clrctx s = .next { s with ctx := cleared, status := ⟨false, true, false, false, false, false, 0x00, 0x00⟩ }) ∧
    (s.status.busy = true →
      exec .clrctx s = .next { s with
        ctx := cleared
        status := ⟨false, true, true, false, false, false, 0x13, 0xFF⟩
        outputs :=
          if s.ctx.fsm ∈ [FsmState.sendch, .recvk1, .resv, .recvch, .sendk2, .busk, .fetch] then
            s.outputs ++ [.invalidateSession s.ctx.sid]
          else s.outputs })

/-! ### The AuthenticationProtocol FSM

The events come from the queue `inputs` (log 1). A call is recorded in `outputs` in the step of its answer, as
44_authentication R202 makes them one step (log 2, log 15). -/

/-- REQ: `NoChannel` ends the session with ChannelUnavailable. `GrantFail` counts the attempt, sends
`invalidateSession` with the current SID, and ends the session with SessionGrantFailure once the attempts reach
GRANT_MAX_ATTEMPTS, else stays in REQ. `Sid` stores the id, sets the fixed challenge and goes to SENDCH
(44_authentication R206). -/
def Obligations.RequestAnswers : Prop :=
  ∀ (s : State) (rest : List Input), s.status.busy = true → s.ctx.fsm = .req →
    (s.inputs = .answer .noChannel :: rest →
      step s = State.sessionEnd { s with inputs := rest, outputs := s.outputs ++ [.call .openSession] }
        (some .channelUnavailable)) ∧
    (s.inputs = .answer .grantFail :: rest →
      let t : State := { s with
        inputs := rest
        outputs := s.outputs ++ [.call .openSession, .invalidateSession s.ctx.sid]
        ctx := { s.ctx with attempts := s.ctx.attempts + 1 } }
      step s = if Config.platform.grantRetries.val + 1 ≤ (s.ctx.attempts + 1).toNat
        then t.sessionEnd (some .sessionGrantFailure) else .next t) ∧
    (∀ v : Word, s.inputs = .answer (.sid v) :: rest →
      step s = .next { s with
        inputs := rest
        outputs := s.outputs ++ [.call .openSession]
        ctx := { s.ctx with sid := v, chal := ⟨⟨0, 1, 2, 3, 4⟩, ⟨5, 6, 7, 8, 9⟩⟩, fsm := .sendch } })

/-- SENDCH, RECVK1 and SENDK2: `Ack` goes on to RECVK1, key1 is stored on the way to RESV, `Ok` goes on to BUSK and
`AuthFailure` ends the session with DriveAuthFailure (44_authentication R207, R208, R211). -/
def Obligations.HandshakeAnswers : Prop :=
  ∀ (s : State) (rest : List Input), s.status.busy = true →
    (s.ctx.fsm = .sendch → s.inputs = .answer .ack :: rest →
      step s = .next { s with
        inputs := rest, outputs := s.outputs ++ [.call (.sendChallenge s.ctx.sid s.ctx.chal)]
        ctx := { s.ctx with fsm := .recvk1 } }) ∧
    (∀ k : Block, s.ctx.fsm = .recvk1 → s.inputs = .answer (.block k) :: rest →
      step s = .next { s with
        inputs := rest, outputs := s.outputs ++ [.call (.receiveKey1 s.ctx.sid)]
        ctx := { s.ctx with key1 := k, fsm := .resv } }) ∧
    (s.ctx.fsm = .sendk2 → s.inputs = .answer .ok :: rest →
      step s = .next { s with
        inputs := rest, outputs := s.outputs ++ [.call (.sendKey2 s.ctx.sid s.ctx.key2)]
        ctx := { s.ctx with fsm := .busk } }) ∧
    (s.ctx.fsm = .sendk2 → s.inputs = .answer .authFailure :: rest →
      step s = State.sessionEnd
        { s with inputs := rest, outputs := s.outputs ++ [.call (.sendKey2 s.ctx.sid s.ctx.key2)] }
        (some .driveAuthFailure))

/-- RESV: the first matching variant is stored on the way to RECVCH, and no match ends the session with
VariantResolutionFailure, VARIANT as it was (44_authentication R209). -/
def Obligations.ResolveVariantStep : Prop :=
  ∀ (s : State) (rest : List Input), s.status.busy = true → s.ctx.fsm = .resv → s.inputs = .coreTurn :: rest →
    match resolveVariant Config.platform s.ctx.chal s.ctx.key1 with
    | some v => step s = .next { s with inputs := rest, ctx := { s.ctx with variant := some v, fsm := .recvch } }
    | none => step s = State.sessionEnd { s with inputs := rest } (some .variantResolutionFailure)

/-- RECVCH stores the drive's challenge and the key2 it gives under the resolved variant; BUSK stores the bus key of
`KEY1 || KEY2` (44_authentication R210, R212). -/
def Obligations.Key2AndBusKeySteps : Prop :=
  ∀ (s : State) (rest : List Input) (v : Variant), s.status.busy = true → s.ctx.variant = some v →
    (∀ c : Challenge, s.ctx.fsm = .recvch → s.inputs = .answer (.challenge c) :: rest →
      step s = .next { s with
        inputs := rest, outputs := s.outputs ++ [.call (.receiveChallenge s.ctx.sid)]
        ctx := { s.ctx with dchal := c, key2 := key2Transform Config.platform v c, fsm := .sendk2 } }) ∧
    (s.ctx.fsm = .busk → s.inputs = .coreTurn :: rest →
      step s = .next { s with
        inputs := rest
        ctx := { s.ctx with
          keycheck := busKeyTransform Config.platform v ⟨s.ctx.key1, s.ctx.key2⟩, fsm := .fetch } })

/-- FETCH in disk-key mode: the data, XORed byte `i` with `KEYCHECK[4 - i mod 5]`, becomes the whole of DK and the
session ends in success; `Error` ends it with StructureReadFailure, DK unchanged (44_authentication R214). -/
def Obligations.DiskKeyFetchStep : Prop :=
  ∀ (s : State) (rest : List Input), s.status.busy = true → s.ctx.fsm = .fetch → s.ctx.mode = .disk →
    (∀ d : Vector Byte 2048, s.inputs = .answer (.diskData d) :: rest →
      ∃ m : Memory, m.resets = s.mem.resets ∧
        (∀ i, i < 2048 → m.read (0x0800 + i) = d.toList.getD i 0 ^^^ busKeyByte s.ctx.keycheck i) ∧
        (∀ a, a < 0x0800 ∨ 0x1000 ≤ a → m.read a = s.mem.read a) ∧
        step s = State.sessionEnd
          { s with
            mem := m, inputs := rest, outputs := s.outputs ++ [.call (.readDiskKeyStructure s.ctx.sid)] } none) ∧
    (s.inputs = .answer .error :: rest →
      step s = State.sessionEnd
        { s with inputs := rest, outputs := s.outputs ++ [.call (.readDiskKeyStructure s.ctx.sid)] }
        (some .structureReadFailure))

/-- FETCH in title-key mode: the data, XORed byte `i` with `KEYCHECK[4 - i]`, becomes ETK and the session ends in
success; `Error` ends it with StructureReadFailure, ETK unchanged. The call carries SID and LBA
(44_authentication R215). -/
def Obligations.TitleKeyFetchStep : Prop :=
  ∀ (s : State) (rest : List Input), s.status.busy = true → s.ctx.fsm = .fetch → s.ctx.mode = .title →
    (∀ d : Block, s.inputs = .answer (.titleData d) :: rest →
      step s = State.sessionEnd
        { s with
          inputs := rest, outputs := s.outputs ++ [.call (.readTitleKeyStructure s.ctx.sid s.lba)]
          ctx := { s.ctx with etk := Block.ofFn fun i => d.get i ^^^ s.ctx.keycheck.get (4 - i) } } none) ∧
    (s.inputs = .answer .error :: rest →
      step s = State.sessionEnd
        { s with inputs := rest, outputs := s.outputs ++ [.call (.readTitleKeyStructure s.ctx.sid s.lba)] }
        (some .structureReadFailure))

/-- DTKS: a confirmed title key is stored, ENC becomes 1 and ACQ completes with RESULT 1; without one it completes with
NoMatchingPlayerKey and RESULT 0xFF, ENC and TITLEKEY as they were (44_authentication R217). -/
def Obligations.TitleKeyDecryptionStep : Prop :=
  ∀ (s : State) (rest : List Input), s.status.busy = true → s.ctx.fsm = .dtks → s.inputs = .coreTurn :: rest →
    match decryptTitleKey Config.platform (fun i => s.mem.read (0x0800 + i)) s.ctx.etk with
    | some (tk, _) => step s = .next { s with
        inputs := rest
        status := { s.status with busy := false, done := true, err := false, errCode := 0x00, result := 0x01 }
        ctx := { s.ctx with titleKey := tk, enc := true, acqPhase := .inactive, fsm := .idle } }
    | none => step s = .next { s with
        inputs := rest
        status := { s.status with busy := false, done := true, err := true, errCode := 0x06, result := 0xFF }
        ctx := { s.ctx with acqPhase := .inactive, fsm := .idle } }

/-- How a session ends, by the phase ACQPH shows. AUTH completes with RESULT VARIANT or 0xFF; in ACQ's disk-key session
ChannelUnavailable completes as Unencrypted, another error ends the ACQ, success starts the title-key session; in the
title-key session an error ends the ACQ and success goes to DTKS (44_authentication R216). The outcomes' numbers in
ERRCODE are those of 60_exceptions R241's table. -/
def Obligations.SessionEndsByPhase : Prop :=
  [none, some CoreError.channelUnavailable, some .sessionGrantFailure, some .variantResolutionFailure,
      some .driveAuthFailure, some .structureReadFailure, some .noMatchingPlayerKey, some .illegalCommand,
      some .sectorBounds, some .aborted].map outcomeCode =
    [0x00, 0x01, 0x02, 0x03, 0x04, 0x05, 0x06, 0x10, 0x12, 0x13] ∧
  ∀ s : State,
    let ended (e : Option CoreError) (r : Byte) : State := { s with
      status := { s.status with busy := false, done := true, err := e.isSome, errCode := outcomeCode e, result := r }
      ctx := { s.ctx with acqPhase := .inactive, fsm := .idle } }
    (s.ctx.acqPhase = .inactive →
      s.sessionEnd none = .next (ended none (variantByte s.ctx.variant)) ∧
        ∀ e, s.sessionEnd (some e) = .next (ended (some e) 0xFF)) ∧
    (s.ctx.acqPhase = .diskSession →
      s.sessionEnd (some .channelUnavailable) = .next (ended none 0x00) ∧
        (∀ e, e ≠ .channelUnavailable → s.sessionEnd (some e) = .next (ended (some e) 0xFF)) ∧
        s.sessionEnd none = .next { s with ctx := { s.ctx with
          acqPhase := .titleSession, mode := .title, variant := none, attempts := 0, fsm := .req } }) ∧
    (s.ctx.acqPhase = .titleSession →
      (∀ e, s.sessionEnd (some e) = .next (ended (some e) 0xFF)) ∧
        s.sessionEnd none = .next { s with ctx := { s.ctx with acqPhase := .decryption, fsm := .dtks } })

/-- While BUSY each call state has its call pending, with the arguments the registers hold, and there is none
otherwise. Equal registers give an equal call; no host access but the abort changes it, and the abort withdraws it
(44_authentication R201, R204, R225). An answer to a withdrawn call changes nothing (44_authentication R225,
70_reset_and_hazards R272, 93 U9), and so does an answer that is not of the pending call's type (R203), which is the
model's choice (log 10). -/
def Obligations.PendingCallIsFixedByTheRegisters : Prop :=
  (∀ s : State, s.status.busy = true →
    (s.ctx.fsm = .req → pendingCall s = some .openSession) ∧
    (s.ctx.fsm = .sendch → pendingCall s = some (.sendChallenge s.ctx.sid s.ctx.chal)) ∧
    (s.ctx.fsm = .recvk1 → pendingCall s = some (.receiveKey1 s.ctx.sid)) ∧
    (s.ctx.fsm = .recvch → pendingCall s = some (.receiveChallenge s.ctx.sid)) ∧
    (s.ctx.fsm = .sendk2 → pendingCall s = some (.sendKey2 s.ctx.sid s.ctx.key2)) ∧
    (s.ctx.fsm = .fetch → s.ctx.mode = .disk → pendingCall s = some (.readDiskKeyStructure s.ctx.sid)) ∧
    (s.ctx.fsm = .fetch → s.ctx.mode = .title → pendingCall s = some (.readTitleKeyStructure s.ctx.sid s.lba))) ∧
  (∀ s : State, (pendingCall s).isSome = true ↔
    s.status.busy = true ∧ s.ctx.fsm ∈ [FsmState.req, .sendch, .recvk1, .recvch, .sendk2, .fetch]) ∧
  (∀ s t : State, t.status.busy = s.status.busy → t.ctx.fsm = s.ctx.fsm → t.ctx.sid = s.ctx.sid →
    t.ctx.chal = s.ctx.chal → t.ctx.key2 = s.ctx.key2 → t.ctx.mode = s.ctx.mode → t.lba = s.lba →
      pendingCall t = pendingCall s) ∧
  (∀ (s t : State) (a : HostAddr) (n : Nat) (rest : List Input), s.inputs = .hostRead a n :: rest →
    step s = .next t → pendingCall t = pendingCall s) ∧
  (∀ (s t : State) (a : HostAddr) (n : Nat) (v : Word) (rest : List Input), s.inputs = .hostWrite a n v :: rest →
    s.status.busy = true → ¬ (a = 0x1080 ∧ n = 4 ∧ v = 0x4C000000) → step s = .next t → pendingCall t = pendingCall s) ∧
  (∀ (s t : State) (rest : List Input), s.inputs = .hostWrite 0x1080 4 0x4C000000 :: rest →
    step s = .next t → pendingCall t = none) ∧
  (∀ (s : State) (a : Answer) (rest : List Input), s.inputs = .lateAnswer a :: rest →
    step s = .next { s with inputs := rest }) ∧
  (∀ (s : State) (a : Answer) (rest : List Input), s.inputs = .answer a :: rest →
    (∀ c, pendingCall s = some c → ¬ AnswersCall c a) → step s = .next { s with inputs := rest })

/-- A title-key session of AUTH in which every step succeeds takes eight FSM steps, makes its six calls in order, and
ends with RESULT the variant and the context and ETK as the steps compute them, and nothing else changed
(44_authentication R206-R218; 70_reset_and_hazards R284). -/
def Obligations.TitleSessionRunsToCompletion : Prop :=
  ∀ (s : State) (sid : Word) (k1 d : Block) (c : Challenge) (v : Variant) (rest : List Input),
    s.status.busy = true → s.ctx.fsm = .req → s.ctx.mode = .title → s.ctx.acqPhase = .inactive →
    s.inputs = titleSessionInputs sid k1 c d ++ rest →
    resolveVariant Config.platform initialChallenge k1 = some v →
      let key2 := key2Transform Config.platform v c
      let busKey := busKeyTransform Config.platform v ⟨k1, key2⟩
      runSteps 8 s = .next { s with
        inputs := rest
        outputs := s.outputs ++ [.call .openSession, .call (.sendChallenge sid initialChallenge),
          .call (.receiveKey1 sid), .call (.receiveChallenge sid), .call (.sendKey2 sid key2),
          .call (.readTitleKeyStructure sid s.lba)]
        status := { s.status with busy := false, done := true, err := false, errCode := 0x00, result := v.setWidth 8 }
        ctx := { s.ctx with
          sid := sid, chal := initialChallenge, dchal := c, key1 := k1, key2 := key2, keycheck := busKey
          variant := some v, etk := Block.ofFn fun i => d.get i ^^^ busKey.get (4 - i), fsm := .idle } }

/-- GRANT_MAX_ATTEMPTS consecutive `GrantFail` answers end an AUTH with SessionGrantFailure: one call and one
`invalidateSession` for each, ATTEMPTS at the maximum, nothing else changed (44_authentication R206). The parameter is
one more than the retries the configuration holds (log 5). -/
def Obligations.GrantFailuresExhaustTheBudget : Prop :=
  ∀ (s : State) (rest : List Input), s.status.busy = true → s.ctx.fsm = .req → s.ctx.acqPhase = .inactive →
    s.ctx.attempts = 0 →
    let max := Config.platform.grantRetries.val + 1
    s.inputs = List.replicate max (.answer .grantFail) ++ rest →
      runSteps max s = .next { s with
        inputs := rest
        outputs := s.outputs ++
          (List.replicate max [Output.call .openSession, Output.invalidateSession s.ctx.sid]).flatten
        status := { s.status with busy := false, done := true, err := true, errCode := 0x02, result := 0xFF }
        ctx := { s.ctx with attempts := BitVec.ofNat 8 max, fsm := .idle } }

/-- An ACQ whose first `openSession` answers `NoChannel` ends after two steps as Unencrypted, with no error, ENC 0 and
VARIANT unresolved (44_authentication R216, R221, R232). -/
def Obligations.NoChannelMeansUnencrypted : Prop :=
  ∀ (s : State) (rest : List Input), s.status.busy = false →
    s.inputs = .hostWrite 0x1080 4 0x44000000 :: .answer .noChannel :: rest →
      runSteps 2 s = .next { s with
        inputs := rest
        outputs := s.outputs ++ [.call .openSession]
        status := ⟨false, true, false, false, s.status.busyWr, s.status.hostErr, 0x00, 0x00⟩
        ctx := { s.ctx with
          enc := false, acqPhase := .inactive, mode := .disk, variant := none, attempts := 0, fsm := .idle } }

/-! ### Host accesses -/

/-- The accesses the core takes as legal are those of 20_memory R62, word for word, also for a reserved address inside
a byte region, where the model reads R63 by R62 (log 11). -/
def Obligations.LegalAccessesAreThoseOfTheMap : Prop :=
  ∀ (a : HostAddr) (n : Nat), legalAccess a n = true ↔ LegalAccess a.toNat n

/-- An illegal access has no effect but `HOSTERR <- 1`, and an illegal read returns 0 (20_memory R63). -/
def Obligations.IllegalAccessesOnlySetHosterr : Prop :=
  ∀ (s : State) (a : HostAddr) (n : Nat) (v : Word) (rest : List Input), ¬ LegalAccess a.toNat n →
    (s.inputs = .hostRead a n :: rest →
      step s = .next { s with
        inputs := rest, outputs := s.outputs ++ [.readData 0], status := { s.status with hostErr := true } }) ∧
    (s.inputs = .hostWrite a n v :: rest →
      step s = .next { s with inputs := rest, status := { s.status with hostErr := true } })

/-- A legal read of a reserved address returns 0 and sets nothing; a legal write to a reserved or read-only place is
ignored, with no error (20_memory R64). -/
def Obligations.ReservedAndReadOnlyPlacesIgnoreWrites : Prop :=
  ∀ (s : State) (a : HostAddr) (n : Nat) (v : Word) (rest : List Input), LegalAccess a.toNat n →
    (ReservedAddress a.toNat → s.inputs = .hostRead a n :: rest →
      step s = .next { s with inputs := rest, outputs := s.outputs ++ [.readData 0] }) ∧
    (s.status.busy = false → ReservedAddress a.toNat ∨ ReadOnlyAddress a.toNat →
      s.inputs = .hostWrite a n v :: rest → step s = .next { s with inputs := rest })

/-- While BUSY, a legal write to an address other than CMD, and a command other than CLRCTX, change nothing but
`BUSYWR <- 1`; a legal read returns the current value and changes nothing (20_memory R67). -/
def Obligations.BusyCoreDropsHostWrites : Prop :=
  ∀ (s : State) (a : HostAddr) (n : Nat) (v : Word) (rest : List Input), s.status.busy = true →
    LegalAccess a.toNat n →
    (s.inputs = .hostWrite a n v :: rest → (a = 0x1080 → v ≠ 0x4C000000) →
      step s = .next { s with inputs := rest, status := { s.status with busyWr := true } }) ∧
    (s.inputs = .hostRead a n :: rest →
      step s = .next { s with inputs := rest, outputs := s.outputs ++ [.readData (readLocation s a)] })

/-- A legal host read, busy core or idle, returns the current value at its address and changes nothing (20_memory R63,
R66); the value is that of the register or byte that 10_state R33 puts there. A host write to a writable place is what a
read there then returns, and no other address reads differently (20_memory R63, R73, R79). A byte read is zero-filled
to a word, and a byte write stores the low byte of the value it carries (log 19). -/
def Obligations.HostWritesReadBack : Prop :=
  (∀ (s : State) (a : HostAddr) (n : Nat) (rest : List Input), LegalAccess a.toNat n →
    s.inputs = .hostRead a n :: rest →
      step s = .next { s with inputs := rest, outputs := s.outputs ++ [.readData (readLocation s a)] }) ∧
  (∀ s : State, ReadsFollowTheMap s) ∧
  ∀ (s : State) (a : HostAddr) (n : Nat) (v : Word) (rest : List Input), s.status.busy = false →
    WritablePlace a.toNat n → s.inputs = .hostWrite a n v :: rest →
      ∃ t, step s = .next t ∧ readLocation t a = storedValue n v ∧
        (∀ b, b ≠ a → readLocation t b = readLocation s b) ∧
        t.status = s.status ∧ t.ctx = s.ctx ∧ t.inputs = rest ∧ t.outputs = s.outputs

/-- Every bit of the STATUS word (10_state R28), and of the VARIANT, FSM and FLAGS bytes at their addresses, with the
numbers of the FSM states, the modes and the ACQ phases (10_state R31, R32). -/
def Obligations.StatusWordLayout : Prop :=
  ∀ s : State,
    (statusWord s).getLsbD 0 = s.status.busy ∧ (statusWord s).getLsbD 1 = s.status.done ∧
    (statusWord s).getLsbD 2 = s.status.err ∧ (statusWord s).getLsbD 3 = s.status.anom ∧
    (statusWord s).getLsbD 4 = s.status.busyWr ∧ (statusWord s).getLsbD 5 = s.status.hostErr ∧
    (statusWord s).getLsbD 6 = s.ctx.enc ∧ (statusWord s).getLsbD 7 = false ∧
    (statusWord s).extractLsb' 8 8 = s.status.errCode ∧ (statusWord s).extractLsb' 16 8 = s.status.result ∧
    (statusWord s).extractLsb' 24 4 = fsmCode s.ctx.fsm ∧ (statusWord s).extractLsb' 28 4 = 0 ∧
    readLocation s 0x10E8 = (variantByte s.ctx.variant).setWidth 32 ∧
    variantByte none = 0xFF ∧ (∀ v : Variant, (variantByte (some v)).toNat = v.toNat) ∧
    readLocation s 0x10EA = (fsmCode s.ctx.fsm).setWidth 32 ∧
    [FsmState.idle, .req, .sendch, .recvk1, .resv, .recvch, .sendk2, .busk, .fetch, .dtks].map fsmCode =
      [0, 1, 2, 3, 4, 5, 6, 7, 8, 9] ∧
    (readLocation s 0x10EB).getLsbD 0 = s.ctx.enc ∧
    (readLocation s 0x10EB).extractLsb' 1 1 = modeCode s.ctx.mode ∧
    [SessionMode.disk, .title].map modeCode = [0, 1] ∧
    (readLocation s 0x10EB).extractLsb' 2 2 = phaseCode s.ctx.acqPhase ∧
    [AcqPhase.inactive, .diskSession, .titleSession, .decryption].map phaseCode = [0, 1, 2, 3] ∧
    (readLocation s 0x10EB).extractLsb' 4 28 = 0

/-- LBA resets to 0, the host reads and writes all of it at 0x1088, the title-key fetch passes it, and nothing but a
host write there and reset changes it (10_state R29). -/
def Obligations.LbaIsWrittenOnlyByTheHost : Prop :=
  State.reset.lba = 0 ∧
  (∀ s : State, readLocation s 0x1088 = s.lba) ∧
  (∀ (s : State) (v : Word) (rest : List Input), s.status.busy = false → s.inputs = .hostWrite 0x1088 4 v :: rest →
    step s = .next { s with inputs := rest, lba := v }) ∧
  (∀ s : State, s.status.busy = true → s.ctx.fsm = .fetch → s.ctx.mode = .title →
    pendingCall s = some (.readTitleKeyStructure s.ctx.sid s.lba)) ∧
  (∀ s t : State, step s = .next t → (∀ rest, s.inputs ≠ .reset :: rest) →
    (∀ v rest, s.inputs ≠ .hostWrite 0x1088 4 v :: rest) → t.lba = s.lba)

/-! ### Reset, invariants and rules of the whole machine -/

/-- The reset state (10_state R40). The unspecified bytes of KS, SEC and DK read as the free value of log 3. -/
def Obligations.ResetValues : Prop :=
  (∀ r i, (State.reset.readBR r).get i = 0) ∧ (∀ c i, (State.reset.readCR c).get i = 0) ∧
  State.reset.lba = 0 ∧ statusWord State.reset = 0 ∧
  (∀ b : ContextByte, readContext State.reset.ctx b = if b = .variant then 0xFF else 0x00) ∧
  State.reset.ctx.sid = 0 ∧ pendingCall State.reset = none ∧
  ∀ a, State.reset.mem.read a = Config.powerOnByte 0 a

/-- A platform reset gives every register its reset value at any moment, leaves KS, SEC and DK unspecified anew,
withdraws the pending call, records no error and sends no notification (70_reset_and_hazards R271, R272). The free
value of an unspecified byte (log 3) and the queues that stay (log 17) are the model's form. -/
def Obligations.PlatformResetRestoresResetValues : Prop :=
  ∀ (s : State) (rest : List Input), s.inputs = .reset :: rest →
    ∃ t, step s = .next t ∧ t.br = State.reset.br ∧ t.cr = State.reset.cr ∧ t.lba = 0 ∧ t.ctx = State.reset.ctx ∧
      t.status = State.reset.status ∧ statusWord t = 0 ∧ pendingCall t = none ∧ t.outputs = s.outputs ∧
      t.inputs = rest ∧ ∀ a, t.mem.read a = Config.powerOnByte (s.mem.resets + 1) a

/-- The invariant holds right after reset (10_state R40, 44_authentication R231). -/
def Obligations.ResetStateIsSound : Prop := State.reset.Sound

/-- Every step from a state that meets the invariant gives a state that meets it: memory stays canonical, STATUS stays
consistent, and the session registers keep the invariants (a), (c), (d), (e) of 44_authentication R231. The canonical
form is the model's (log 6). -/
def Obligations.EveryStepKeepsTheInvariant : Prop :=
  ∀ s t : State, s.Sound → step s = .next t → t.Sound

/-- No input stops a core that meets the invariant: every step of it gives a next state, so the core is never stuck or
undefined (60_exceptions R246) and the model's two faults are never met (log 8). -/
def Obligations.SoundStatesNeverStop : Prop :=
  ∀ s : State, s.Sound → ∃ t, step s = .next t

/-- ENC becomes 1 only in the DTKS step that stores a decrypted title key in TITLEKEY, becomes 0 only by an accepted
ACQ, by CLRCTX or by reset, and STATUS shows a copy of it (44_authentication R222). -/
def Obligations.EncryptedFlagFollowsDecryption : Prop :=
  (∀ s : State, (statusWord s).getLsbD 6 = s.ctx.enc) ∧
  ∀ s t : State, step s = .next t →
    (t.ctx.enc = true → s.ctx.enc = true ∨
      (s.status.busy = true ∧ s.ctx.fsm = .dtks ∧
        ∃ tk j, decryptTitleKey Config.platform (fun i => s.mem.read (0x0800 + i)) s.ctx.etk = some (tk, j) ∧
          t.ctx.titleKey = tk)) ∧
    (t.ctx.enc = false → s.ctx.enc = false ∨
      ∃ rest, s.inputs = .reset :: rest ∨ s.inputs = .hostWrite 0x1080 4 0x4C000000 :: rest ∨
        (s.inputs = .hostWrite 0x1080 4 0x44000000 :: rest ∧ s.status.busy = false))

/-- Only AUTH, ACQ and CLRCTX among the commands change a context register, and no host access other than to CMD does
(10_state R31). -/
def Obligations.OnlySessionsAndClrctxWriteTheContext : Prop :=
  (∀ (i : Instr) (s t : State), exec i s = .next t → (∀ m, i ≠ .auth m) → i ≠ .acq → i ≠ .clrctx → t.ctx = s.ctx) ∧
  (∀ (s t : State) (a : HostAddr) (n : Nat) (rest : List Input), s.inputs = .hostRead a n :: rest →
    step s = .next t → t.ctx = s.ctx) ∧
  (∀ (s t : State) (a : HostAddr) (n : Nat) (v : Word) (rest : List Input), s.inputs = .hostWrite a n v :: rest →
    a ≠ 0x1080 → step s = .next t → t.ctx = s.ctx)

/-- An FSM step, by an answer or by the core's own turn, leaves BR, CR, LBA, SEC and KS, ANOM and the sticky bits as
they were, and DK too in every step but the one in which the disk-key fetch answers its data: there every other byte of
memory stays. What else a session writes is the context, the fields of STATUS that report it and the outputs
(44_authentication R205-R217, 60_exceptions R249). The core's turn also comes when no event is left (log 16). -/
def Obligations.FsmStepsWriteOnlyTheContextAndDiskKey : Prop :=
  ∀ (s t : State) (rest : List Input),
    ((∃ a, s.inputs = .answer a :: rest) ∨ s.inputs = .coreTurn :: rest ∨ (s.inputs = [] ∧ rest = [])) →
    step s = .next t →
      t.br = s.br ∧ t.cr = s.cr ∧ t.lba = s.lba ∧ t.inputs = rest ∧ t.mem.resets = s.mem.resets ∧
      (∀ a, a < 0x0800 ∨ 0x1000 ≤ a → t.mem.read a = s.mem.read a) ∧
      (¬ (s.status.busy = true ∧ s.ctx.fsm = .fetch ∧ s.ctx.mode = .disk ∧
          ∃ d, s.inputs = .answer (.diskData d) :: rest) → SameMemory s t) ∧
      t.status.anom = s.status.anom ∧ t.status.busyWr = s.status.busyWr ∧ t.status.hostErr = s.status.hostErr

/-- The sticky bits BUSYWR and HOSTERR are cleared only by reset and by CLRCTX (10_state R28, 60_exceptions R244). -/
def Obligations.StickyBitsStayUntilResetOrClrctx : Prop :=
  ∀ s t : State, step s = .next t →
    (∀ rest, s.inputs ≠ .reset :: rest) → (∀ rest, s.inputs ≠ .hostWrite 0x1080 4 0x4C000000 :: rest) →
      (s.status.busyWr = true → t.status.busyWr = true) ∧ (s.status.hostErr = true → t.status.hostErr = true)

/-! ### The units -/

/-- The generator's output order: the first bit of a byte is its bit 0, and the byte at index `k` of `n` is the one
produced after `n - 1 - k` others (40_bitstream R126, R127). -/
def Obligations.GeneratorBytesAreLsbFirstBackToFront : Prop :=
  (∀ (g : Generator) (i : Nat), i < 8 → (nextByte g).1.getLsbD i = (stepBit (generatorAfterBits g i)).1) ∧
  (∀ g : Generator, (nextByte g).2 = generatorAfterBits g 8) ∧
  ∀ (s : Block) (n k : Nat), k < n →
    (generate s n).getD k 0 = (nextByte (generatorAfterBytes (seedGenerator s) (n - 1 - k))).1

/-- One output bit, in integers: each register is shifted left by one within its width with its own feedback bit
inserted, and the bit and the carry are the two bits of `!f1 + carry + !f0` (40_bitstream R124). -/
def Obligations.GeneratorStepFormula : Prop :=
  ∀ g : Generator,
    let f0 := (g.lfsr0.getLsbD 24 ^^ g.lfsr0.getLsbD 21 ^^ g.lfsr0.getLsbD 20 ^^ g.lfsr0.getLsbD 12).toNat
    let f1 := (g.lfsr1.getLsbD 16 ^^ g.lfsr1.getLsbD 2).toNat
    let sum := (1 - f1) + g.carry.toNat + (1 - f0)
    (stepBit g).2.lfsr0.toNat = (2 * g.lfsr0.toNat + f0) % 2 ^ 25 ∧
      (stepBit g).2.lfsr1.toNat = (2 * g.lfsr1.toNat + f1) % 2 ^ 17 ∧
      (stepBit g).1.toNat = sum % 2 ∧ (stepBit g).2.carry.toNat = sum / 2

/-- Neither LFSR of the generator is ever zero (40_bitstream R130). -/
def Obligations.GeneratorRegistersNeverZero : Prop :=
  ∀ (s : Block) (k : Nat),
    (generatorAfterBits (seedGenerator s) k).lfsr0 ≠ 0 ∧ (generatorAfterBits (seedGenerator s) k).lfsr1 ≠ 0

/-- When TAB1 is a bijection, mix is a bijection of the key for each seed and invert flag (42_keyderivation R169). -/
def Obligations.MixIsABijectionWhenTab1Is : Prop :=
  ∀ (cfg : Config) (s : Block) (inv : Bool), Function.Bijective cfg.tab1 →
    Function.Bijective fun k => mix cfg k s inv

/-- The reference's bit-reversed form of `r0` gives the same `f0` sequence for every seed (42_keyderivation R164). -/
def Obligations.ReversedRegisterGivesTheSameStream : Prop :=
  ∀ (cfg : Config) (s : Block) (k : Nat),
    (pairStep cfg (pairAfter cfg (pairSeed s) k)).1.1 = reversedOutput (reversedAfter (pairSeed s).r0.reverse k)
end

