-- ==== Sys2Proof/Laws/Bus.lean ====
section
/-! SUPPORT. What `locate` answers for every host address, said once, with the address it answers it for. -/

namespace Sys2Proof.Machine

/-- The host address of a word register. -/
def WordRegister.address : WordRegister → Nat
  | .cmd => 0x1080
  | .status => 0x1084
  | .lba => 0x1088
  | .sid => 0x10EC

/-- The host address of a byte-wide context register. -/
def ContextByte.address : ContextByte → Nat
  | .chal i => 0x10A0 + i.val
  | .dchal i => 0x10B0 + i.val
  | .key1 i => 0x10C0 + i.val
  | .key2 i => 0x10C8 + i.val
  | .keycheck i => 0x10D0 + i.val
  | .etk i => 0x10D8 + i.val
  | .titleKey i => 0x10E0 + i.val
  | .variant => 0x10E8
  | .attempts => 0x10E9
  | .fsm => 0x10EA
  | .flags => 0x10EB

theorem slot_cases (n k : Nat) (f : Fin n → Location) :
    (∃ i : Fin n, i.val = k ∧ slot n k f = f i) ∨ (n ≤ k ∧ slot n k f = .reserved) := by
  unfold slot
  by_cases h : k < n
  · exact .inl ⟨⟨k, h⟩, rfl, by simp [h]⟩
  · exact .inr ⟨by omega, by simp [h]⟩

theorem wordAt_cases (w : WordRegister) (k : Nat) :
    (k = 0 ∧ wordAt w k = .word w) ∨ (0 < k ∧ wordAt w k = .insideWord) := by
  unfold wordAt
  by_cases h : k = 0
  · exact .inl ⟨h, by simp [h]⟩
  · exact .inr ⟨by omega, by simp [h]⟩

/-- What stands at an address, and which addresses have it there. -/
inductive Located (a : Nat) : Location → Prop
  | buffer : a < 0x1020 → Located a .buffer
  | br (r : BrIndex) (i : Fin 5) : a = 0x1020 + 8 * r.toNat + i.val → Located a (.br r i)
  | cr (c : Fin 2) (i : Fin 10) : a = 0x1060 + 16 * c.val + i.val → Located a (.cr c i)
  | context (b : ContextByte) : a = b.address → Located a (.context b)
  | word (w : WordRegister) : a = w.address → Located a (.word w)
  | insideWord (w : WordRegister) : w.address < a → a < w.address + 4 → Located a .insideWord
  | reserved : ReservedAddress a → Located a .reserved

theorem located_slot {a n k : Nat} {f : Fin n → Location} (hf : ∀ i : Fin n, i.val = k → Located a (f i))
    (hr : n ≤ k → ReservedAddress a) : Located a (slot n k f) := by
  rcases slot_cases n k f with ⟨i, hi, h⟩ | ⟨hi, h⟩ <;> rw [h]
  · exact hf i hi
  · exact .reserved (hr hi)

theorem located_wordAt {a : Nat} (w : WordRegister) (h1 : w.address ≤ a) (h2 : a < w.address + 4) :
    Located a (wordAt w (a - w.address)) := by
  rcases wordAt_cases w (a - w.address) with ⟨hi, h⟩ | ⟨hi, h⟩ <;> rw [h]
  · exact .word w (by omega)
  · exact .insideWord w (by omega) h2

theorem located_if {a : Nat} {p : Prop} [Decidable p] {l m : Location} (h1 : p → Located a l)
    (h2 : ¬ p → Located a m) : Located a (if p then l else m) := by
  split
  · exact h1 ‹_›
  · exact h2 ‹_›

/-- Every address has what stands there where the map puts it (10_state R30, R31, R33). -/
theorem located (addr : HostAddr) : Located addr.toNat (locate addr) := by
  have ha : addr.toNat < 65536 := addr.isLt
  unfold locate
  dsimp only
  generalize addr.toNat = a at *
  refine located_if .buffer fun h0 => ?_
  refine located_if (fun h1 => located_slot (fun i hi => .br _ _ ?_) fun hi => (.inl (by omega))) fun h0 => ?_
  · rw [BitVec.toNat_ofNat]; omega
  refine located_if (fun h1 => located_slot (fun i hi => .cr _ _ (by simp only [Fin.val_zero]; omega)) fun hi =>
    .inr (.inl (by omega))) fun h0 => ?_
  refine located_if (fun h1 => located_slot (fun i hi => .cr _ _ (by simp only [Fin.val_one]; omega)) fun hi =>
    .inr (.inl (by omega))) fun h0 => ?_
  refine located_if (fun h1 => located_wordAt .cmd (by simp only [WordRegister.address]; omega) h1) fun h0 => ?_
  refine located_if (fun h1 => located_wordAt .status (by simp only [WordRegister.address]; omega) h1) fun h0 => ?_
  refine located_if (fun h1 => located_wordAt .lba (by simp only [WordRegister.address]; omega) h1) fun h0 => ?_
  refine located_if (fun h1 => .reserved (.inr (.inr (.inl (by omega))))) fun h0 => ?_
  iterate 7
    refine located_if (fun h1 => located_slot (fun i hi => .context _ (by simp only [ContextByte.address]; omega))
      fun hi => (by unfold ReservedAddress; omega)) fun h0 => ?_
  iterate 4
    refine located_if (fun h1 => .context _ (by simp only [ContextByte.address]; omega)) fun h0 => ?_
  refine located_if (fun h1 => located_wordAt .sid (by simp only [WordRegister.address]; omega) h1) fun h0 => ?_
  exact .reserved (by unfold ReservedAddress; omega)

end Sys2Proof.Machine
end

