-- ==== Sys2Proof/Laws/Memory.lean ====
section
/-! SUPPORT. The memory laws: a read after a write, the range read, and that every memory operation keeps the
canonical form. -/

namespace Sys2Proof.Machine

theorem mem_cellsFrom {base : Nat} {vs : List Byte} {c : Host.Cell} (h : c ∈ cellsFrom base vs) :
    base ≤ c.1 ∧ c.1 < base + vs.length := by
  induction vs generalizing base with
  | nil => cases h
  | cons v vs ih =>
    rcases List.mem_cons.mp h with rfl | h
    · simp
    · have := ih h
      simp only [List.length_cons]
      omega

theorem cellsFrom_pairwise (base : Nat) (vs : List Byte) :
    (cellsFrom base vs).Pairwise fun c d => c.1 < d.1 := by
  induction vs generalizing base with
  | nil => exact List.Pairwise.nil
  | cons v vs ih =>
    refine List.Pairwise.cons (fun d hd => ?_) (ih (base + 1))
    have := mem_cellsFrom hd
    simp only
    omega

theorem find_cellsFrom (base a : Nat) (vs : List Byte) :
    ((cellsFrom base vs).find? fun c => c.1 == a).map (·.2) =
      if base ≤ a then vs[a - base]? else none := by
  induction vs generalizing base with
  | nil => simp [cellsFrom]
  | cons v vs ih =>
    by_cases hb : base = a
    · subst hb; simp [cellsFrom]
    · rw [cellsFrom, List.find?_cons_of_neg (by simpa using hb), ih]
      by_cases hle : base ≤ a
      · have h1 : base + 1 ≤ a := by omega
        have h2 : a - base = (a - (base + 1)) + 1 := by omega
        simp [hle, h1, h2]
      · have h1 : ¬ base + 1 ≤ a := by omega
        simp [hle, h1]

/-- What a write leaves at each address. -/
theorem find_write (m : Memory) (base : Nat) (vs : List Byte) (a : Nat) :
    (m.write base vs).find? a =
      if base ≤ a ∧ a < base + vs.length then vs[a - base]? else m.find? a := by
  have hlow : ∀ (p : Host.Cell → Bool), (∀ c : Host.Cell, c.1 = a → p c = true) →
      (m.cells.filter p).find? (fun c => c.1 == a) = m.cells.find? fun c => c.1 == a := by
    intro p hp
    rw [List.find?_filter]
    congr 1
    funext c
    by_cases hc : c.1 = a
    · simp [hc, hp c hc]
    · simp [hc]
  have hnone : ∀ (p : Host.Cell → Bool), (∀ c : Host.Cell, c.1 = a → p c = false) →
      (m.cells.filter p).find? (fun c => c.1 == a) = none := by
    intro p hp
    rw [List.find?_filter, List.find?_eq_none]
    intro c _
    by_cases hc : c.1 = a
    · simp [hp c hc]
    · simp [hc]
  unfold Memory.find? Memory.write
  simp only [List.find?_append]
  by_cases h1 : base ≤ a
  · rw [hnone (fun c => c.1 < base) (fun c hc => by simp; omega)]
    by_cases h2 : a < base + vs.length
    · have hf := find_cellsFrom base a vs
      have hlt : a - base < vs.length := by omega
      rw [hnone (fun c => base + vs.length ≤ c.1) (fun c hc => by simp; omega)]
      simp only [h1, if_true, h2, and_self, Option.none_or, Option.or_none] at hf ⊢
      exact hf
    · have hf : (cellsFrom base vs).find? (fun c => c.1 == a) = none := by
        rw [List.find?_eq_none]
        intro c hc
        have := mem_cellsFrom hc
        simp only [beq_iff_eq]
        omega
      rw [hf, hlow (fun c => base + vs.length ≤ c.1) (fun c hc => by simp; omega)]
      simp [h2]
  · have hf : (cellsFrom base vs).find? (fun c => c.1 == a) = none := by
      rw [List.find?_eq_none]
      intro c hc
      have := mem_cellsFrom hc
      simp only [beq_iff_eq]
      omega
    rw [hlow (fun c => c.1 < base) (fun c hc => by simp; omega), hf,
      hnone (fun c => base + vs.length ≤ c.1) (fun c hc => by simp; omega)]
    simp [h1]

@[simp] theorem write_resets (m : Memory) (base : Nat) (vs : List Byte) : (m.write base vs).resets = m.resets := rfl

/-- Reading after a write: the byte written inside the range, the old byte everywhere else. -/
theorem read_write (m : Memory) (base : Nat) (vs : List Byte) (a : Nat) :
    (m.write base vs).read a =
      if base ≤ a ∧ a < base + vs.length then vs.getD (a - base) 0 else m.read a := by
  unfold Memory.read
  rw [find_write, write_resets]
  by_cases h : base ≤ a ∧ a < base + vs.length
  · have hlt : a - base < vs.length := by omega
    simp [h, List.getD, List.getElem?_eq_getElem hlt]
  · simp [h]

theorem read_write_outside {m : Memory} {base a : Nat} {vs : List Byte}
    (h : a < base ∨ base + vs.length ≤ a) : (m.write base vs).read a = m.read a := by
  rw [read_write, if_neg (by omega)]

theorem read_write_inside {m : Memory} {base a : Nat} {vs : List Byte}
    (h1 : base ≤ a) (h2 : a < base + vs.length) : (m.write base vs).read a = vs.getD (a - base) 0 := by
  rw [read_write, if_pos ⟨h1, h2⟩]

/-- A write inside the buffers keeps the canonical form. -/
theorem write_wf {m : Memory} {base : Nat} {vs : List Byte} (h : m.wf) (hb : base + vs.length ≤ bufferEnd) :
    (m.write base vs).wf := by
  refine ⟨?_, ?_⟩
  · show List.Pairwise _ (_ ++ _ ++ _)
    rw [List.pairwise_append, List.pairwise_append]
    refine ⟨⟨h.1.filter _, cellsFrom_pairwise base vs, ?_⟩, h.1.filter _, ?_⟩
    · intro c hc d hd
      have := mem_cellsFrom hd
      have := (List.mem_filter.mp hc).2
      simp only [decide_eq_true_eq] at this
      omega
    · intro c hc d hd
      have hd := (List.mem_filter.mp hd).2
      simp only [decide_eq_true_eq] at hd
      rcases List.mem_append.mp hc with hc | hc
      · have := (List.mem_filter.mp hc).2
        simp only [decide_eq_true_eq] at this
        omega
      · have := mem_cellsFrom hc
        omega
  · intro c hc
    rcases List.mem_append.mp hc with hc | hc
    · rcases List.mem_append.mp hc with hc | hc
      · exact h.2 c (List.mem_filter.mp hc).1
      · have := mem_cellsFrom hc
        omega
    · exact h.2 c (List.mem_filter.mp hc).1

/-- Memory with nothing listed has the canonical form. -/
theorem empty_wf (n : Nat) : Memory.wf ⟨n, []⟩ := by simp [Memory.wf]

@[simp] theorem readRange_length (m : Memory) (base n : Nat) : (m.readRange base n).length = n := by
  simp [Memory.readRange]

theorem readRange_getD (m : Memory) (base n k : Nat) (h : k < n) : (m.readRange base n).getD k 0 = m.read (base + k) := by
  simp [Memory.readRange, List.getD, h]

end Sys2Proof.Machine
end

