-- ==== Sys2Proof/Laws/State.lean ====
section
/-! SUPPORT. One lemma per field per update of the state: what each update puts in each field. -/

namespace Sys2Proof.Machine

/-! `store` -/

@[simp] theorem store_br (s : State) (base : Nat) (vs : List Byte) :
    (s.store base vs).br = s.br := rfl
@[simp] theorem store_cr (s : State) (base : Nat) (vs : List Byte) :
    (s.store base vs).cr = s.cr := rfl
@[simp] theorem store_mem (s : State) (base : Nat) (vs : List Byte) :
    (s.store base vs).mem = s.mem.write base vs := rfl
@[simp] theorem store_status (s : State) (base : Nat) (vs : List Byte) :
    (s.store base vs).status = s.status := rfl
@[simp] theorem store_lba (s : State) (base : Nat) (vs : List Byte) :
    (s.store base vs).lba = s.lba := rfl
@[simp] theorem store_ctx (s : State) (base : Nat) (vs : List Byte) :
    (s.store base vs).ctx = s.ctx := rfl
@[simp] theorem store_inputs (s : State) (base : Nat) (vs : List Byte) :
    (s.store base vs).inputs = s.inputs := rfl
@[simp] theorem store_outputs (s : State) (base : Nat) (vs : List Byte) :
    (s.store base vs).outputs = s.outputs := rfl

/-! `writeBR` -/

@[simp] theorem writeBR_br (s : State) (r : BrIndex) (b : Block) :
    (s.writeBR r b).br = s.br.set r.toNat b r.isLt := rfl
@[simp] theorem writeBR_cr (s : State) (r : BrIndex) (b : Block) :
    (s.writeBR r b).cr = s.cr := rfl
@[simp] theorem writeBR_mem (s : State) (r : BrIndex) (b : Block) :
    (s.writeBR r b).mem = s.mem := rfl
@[simp] theorem writeBR_status (s : State) (r : BrIndex) (b : Block) :
    (s.writeBR r b).status = s.status := rfl
@[simp] theorem writeBR_lba (s : State) (r : BrIndex) (b : Block) :
    (s.writeBR r b).lba = s.lba := rfl
@[simp] theorem writeBR_ctx (s : State) (r : BrIndex) (b : Block) :
    (s.writeBR r b).ctx = s.ctx := rfl
@[simp] theorem writeBR_inputs (s : State) (r : BrIndex) (b : Block) :
    (s.writeBR r b).inputs = s.inputs := rfl
@[simp] theorem writeBR_outputs (s : State) (r : BrIndex) (b : Block) :
    (s.writeBR r b).outputs = s.outputs := rfl

/-! `writeCR` -/

@[simp] theorem writeCR_br (s : State) (c : Fin 2) (x : Challenge) :
    (s.writeCR c x).br = s.br := rfl
@[simp] theorem writeCR_cr (s : State) (c : Fin 2) (x : Challenge) :
    (s.writeCR c x).cr = s.cr.set c.val x c.isLt := rfl
@[simp] theorem writeCR_mem (s : State) (c : Fin 2) (x : Challenge) :
    (s.writeCR c x).mem = s.mem := rfl
@[simp] theorem writeCR_status (s : State) (c : Fin 2) (x : Challenge) :
    (s.writeCR c x).status = s.status := rfl
@[simp] theorem writeCR_lba (s : State) (c : Fin 2) (x : Challenge) :
    (s.writeCR c x).lba = s.lba := rfl
@[simp] theorem writeCR_ctx (s : State) (c : Fin 2) (x : Challenge) :
    (s.writeCR c x).ctx = s.ctx := rfl
@[simp] theorem writeCR_inputs (s : State) (c : Fin 2) (x : Challenge) :
    (s.writeCR c x).inputs = s.inputs := rfl
@[simp] theorem writeCR_outputs (s : State) (c : Fin 2) (x : Challenge) :
    (s.writeCR c x).outputs = s.outputs := rfl

/-! `accept` -/

@[simp] theorem accept_br (s : State) :
    (s.accept).br = s.br := rfl
@[simp] theorem accept_cr (s : State) :
    (s.accept).cr = s.cr := rfl
@[simp] theorem accept_mem (s : State) :
    (s.accept).mem = s.mem := rfl
@[simp] theorem accept_status (s : State) :
    (s.accept).status = s.status.accepted := rfl
@[simp] theorem accept_lba (s : State) :
    (s.accept).lba = s.lba := rfl
@[simp] theorem accept_ctx (s : State) :
    (s.accept).ctx = s.ctx := rfl
@[simp] theorem accept_inputs (s : State) :
    (s.accept).inputs = s.inputs := rfl
@[simp] theorem accept_outputs (s : State) :
    (s.accept).outputs = s.outputs := rfl

/-! `complete` -/

@[simp] theorem complete_br (s : State) (e : Option CoreError) (r : Byte) :
    (s.complete e r).br = s.br := rfl
@[simp] theorem complete_cr (s : State) (e : Option CoreError) (r : Byte) :
    (s.complete e r).cr = s.cr := rfl
@[simp] theorem complete_mem (s : State) (e : Option CoreError) (r : Byte) :
    (s.complete e r).mem = s.mem := rfl
@[simp] theorem complete_status (s : State) (e : Option CoreError) (r : Byte) :
    (s.complete e r).status = s.status.completed e r := rfl
@[simp] theorem complete_lba (s : State) (e : Option CoreError) (r : Byte) :
    (s.complete e r).lba = s.lba := rfl
@[simp] theorem complete_ctx (s : State) (e : Option CoreError) (r : Byte) :
    (s.complete e r).ctx = s.ctx := rfl
@[simp] theorem complete_inputs (s : State) (e : Option CoreError) (r : Byte) :
    (s.complete e r).inputs = s.inputs := rfl
@[simp] theorem complete_outputs (s : State) (e : Option CoreError) (r : Byte) :
    (s.complete e r).outputs = s.outputs := rfl

/-! `raise` -/

@[simp] theorem raise_br (s : State) (e : CoreError) (r : Byte) :
    (s.raise e r).br = s.br := rfl
@[simp] theorem raise_cr (s : State) (e : CoreError) (r : Byte) :
    (s.raise e r).cr = s.cr := rfl
@[simp] theorem raise_mem (s : State) (e : CoreError) (r : Byte) :
    (s.raise e r).mem = s.mem := rfl
@[simp] theorem raise_status (s : State) (e : CoreError) (r : Byte) :
    (s.raise e r).status = s.status.completed (some e) r := rfl
@[simp] theorem raise_lba (s : State) (e : CoreError) (r : Byte) :
    (s.raise e r).lba = s.lba := rfl
@[simp] theorem raise_ctx (s : State) (e : CoreError) (r : Byte) :
    (s.raise e r).ctx = s.ctx := rfl
@[simp] theorem raise_inputs (s : State) (e : CoreError) (r : Byte) :
    (s.raise e r).inputs = s.inputs := rfl
@[simp] theorem raise_outputs (s : State) (e : CoreError) (r : Byte) :
    (s.raise e r).outputs = s.outputs := rfl

/-! `illegal` -/

@[simp] theorem illegal_br (s : State) :
    (s.illegal).br = s.br := rfl
@[simp] theorem illegal_cr (s : State) :
    (s.illegal).cr = s.cr := rfl
@[simp] theorem illegal_mem (s : State) :
    (s.illegal).mem = s.mem := rfl
@[simp] theorem illegal_status (s : State) :
    (s.illegal).status = s.status.completed (some .illegalCommand) 0x00 := rfl
@[simp] theorem illegal_lba (s : State) :
    (s.illegal).lba = s.lba := rfl
@[simp] theorem illegal_ctx (s : State) :
    (s.illegal).ctx = s.ctx := rfl
@[simp] theorem illegal_inputs (s : State) :
    (s.illegal).inputs = s.inputs := rfl
@[simp] theorem illegal_outputs (s : State) :
    (s.illegal).outputs = s.outputs := rfl

/-! `markAnomaly` -/

@[simp] theorem markAnomaly_br (s : State) (o : Imm) :
    (s.markAnomaly o).br = s.br := rfl
@[simp] theorem markAnomaly_cr (s : State) (o : Imm) :
    (s.markAnomaly o).cr = s.cr := rfl
@[simp] theorem markAnomaly_mem (s : State) (o : Imm) :
    (s.markAnomaly o).mem = s.mem := rfl
@[simp] theorem markAnomaly_status (s : State) (o : Imm) :
    (s.markAnomaly o).status = { s.status with anom := offsetAnomaly o } := rfl
@[simp] theorem markAnomaly_lba (s : State) (o : Imm) :
    (s.markAnomaly o).lba = s.lba := rfl
@[simp] theorem markAnomaly_ctx (s : State) (o : Imm) :
    (s.markAnomaly o).ctx = s.ctx := rfl
@[simp] theorem markAnomaly_inputs (s : State) (o : Imm) :
    (s.markAnomaly o).inputs = s.inputs := rfl
@[simp] theorem markAnomaly_outputs (s : State) (o : Imm) :
    (s.markAnomaly o).outputs = s.outputs := rfl

/-! `completeSession` -/

@[simp] theorem completeSession_br (s : State) (e : Option CoreError) (r : Byte) :
    (s.completeSession e r).br = s.br := rfl
@[simp] theorem completeSession_cr (s : State) (e : Option CoreError) (r : Byte) :
    (s.completeSession e r).cr = s.cr := rfl
@[simp] theorem completeSession_mem (s : State) (e : Option CoreError) (r : Byte) :
    (s.completeSession e r).mem = s.mem := rfl
@[simp] theorem completeSession_status (s : State) (e : Option CoreError) (r : Byte) :
    (s.completeSession e r).status = s.status.completed e r := rfl
@[simp] theorem completeSession_lba (s : State) (e : Option CoreError) (r : Byte) :
    (s.completeSession e r).lba = s.lba := rfl
@[simp] theorem completeSession_ctx (s : State) (e : Option CoreError) (r : Byte) :
    (s.completeSession e r).ctx = { s.ctx with fsm := .idle } := rfl
@[simp] theorem completeSession_inputs (s : State) (e : Option CoreError) (r : Byte) :
    (s.completeSession e r).inputs = s.inputs := rfl
@[simp] theorem completeSession_outputs (s : State) (e : Option CoreError) (r : Byte) :
    (s.completeSession e r).outputs = s.outputs := rfl

/-! `dropBusy` -/

@[simp] theorem dropBusy_br (s : State) :
    (s.dropBusy).br = s.br := rfl
@[simp] theorem dropBusy_cr (s : State) :
    (s.dropBusy).cr = s.cr := rfl
@[simp] theorem dropBusy_mem (s : State) :
    (s.dropBusy).mem = s.mem := rfl
@[simp] theorem dropBusy_status (s : State) :
    (s.dropBusy).status = { s.status with busyWr := true } := rfl
@[simp] theorem dropBusy_lba (s : State) :
    (s.dropBusy).lba = s.lba := rfl
@[simp] theorem dropBusy_ctx (s : State) :
    (s.dropBusy).ctx = s.ctx := rfl
@[simp] theorem dropBusy_inputs (s : State) :
    (s.dropBusy).inputs = s.inputs := rfl
@[simp] theorem dropBusy_outputs (s : State) :
    (s.dropBusy).outputs = s.outputs := rfl

/-! `hostError` -/

@[simp] theorem hostError_br (s : State) :
    (s.hostError).br = s.br := rfl
@[simp] theorem hostError_cr (s : State) :
    (s.hostError).cr = s.cr := rfl
@[simp] theorem hostError_mem (s : State) :
    (s.hostError).mem = s.mem := rfl
@[simp] theorem hostError_status (s : State) :
    (s.hostError).status = { s.status with hostErr := true } := rfl
@[simp] theorem hostError_lba (s : State) :
    (s.hostError).lba = s.lba := rfl
@[simp] theorem hostError_ctx (s : State) :
    (s.hostError).ctx = s.ctx := rfl
@[simp] theorem hostError_inputs (s : State) :
    (s.hostError).inputs = s.inputs := rfl
@[simp] theorem hostError_outputs (s : State) :
    (s.hostError).outputs = s.outputs := rfl

/-! `emit` -/

@[simp] theorem emit_br (s : State) (o : Output) :
    (s.emit o).br = s.br := rfl
@[simp] theorem emit_cr (s : State) (o : Output) :
    (s.emit o).cr = s.cr := rfl
@[simp] theorem emit_mem (s : State) (o : Output) :
    (s.emit o).mem = s.mem := rfl
@[simp] theorem emit_status (s : State) (o : Output) :
    (s.emit o).status = s.status := rfl
@[simp] theorem emit_lba (s : State) (o : Output) :
    (s.emit o).lba = s.lba := rfl
@[simp] theorem emit_ctx (s : State) (o : Output) :
    (s.emit o).ctx = s.ctx := rfl
@[simp] theorem emit_inputs (s : State) (o : Output) :
    (s.emit o).inputs = s.inputs := rfl
@[simp] theorem emit_outputs (s : State) (o : Output) :
    (s.emit o).outputs = s.outputs ++ [o] := rfl

/-! `toFsm` -/

@[simp] theorem toFsm_br (s : State) (f : FsmState) :
    (s.toFsm f).br = s.br := rfl
@[simp] theorem toFsm_cr (s : State) (f : FsmState) :
    (s.toFsm f).cr = s.cr := rfl
@[simp] theorem toFsm_mem (s : State) (f : FsmState) :
    (s.toFsm f).mem = s.mem := rfl
@[simp] theorem toFsm_status (s : State) (f : FsmState) :
    (s.toFsm f).status = s.status := rfl
@[simp] theorem toFsm_lba (s : State) (f : FsmState) :
    (s.toFsm f).lba = s.lba := rfl
@[simp] theorem toFsm_ctx (s : State) (f : FsmState) :
    (s.toFsm f).ctx = { s.ctx with fsm := f } := rfl
@[simp] theorem toFsm_inputs (s : State) (f : FsmState) :
    (s.toFsm f).inputs = s.inputs := rfl
@[simp] theorem toFsm_outputs (s : State) (f : FsmState) :
    (s.toFsm f).outputs = s.outputs := rfl

/-! `startSession` -/

@[simp] theorem startSession_br (s : State) (m : SessionMode) :
    (s.startSession m).br = s.br := rfl
@[simp] theorem startSession_cr (s : State) (m : SessionMode) :
    (s.startSession m).cr = s.cr := rfl
@[simp] theorem startSession_mem (s : State) (m : SessionMode) :
    (s.startSession m).mem = s.mem := rfl
@[simp] theorem startSession_status (s : State) (m : SessionMode) :
    (s.startSession m).status = s.status := rfl
@[simp] theorem startSession_lba (s : State) (m : SessionMode) :
    (s.startSession m).lba = s.lba := rfl
@[simp] theorem startSession_ctx (s : State) (m : SessionMode) :
    (s.startSession m).ctx = { s.ctx with mode := m, variant := none, attempts := 0, fsm := .req } := rfl
@[simp] theorem startSession_inputs (s : State) (m : SessionMode) :
    (s.startSession m).inputs = s.inputs := rfl
@[simp] theorem startSession_outputs (s : State) (m : SessionMode) :
    (s.startSession m).outputs = s.outputs := rfl

/-! `acqEnd` -/

@[simp] theorem acqEnd_br (s : State) (e : Option CoreError) (r : Byte) :
    (s.acqEnd e r).br = s.br := rfl
@[simp] theorem acqEnd_cr (s : State) (e : Option CoreError) (r : Byte) :
    (s.acqEnd e r).cr = s.cr := rfl
@[simp] theorem acqEnd_mem (s : State) (e : Option CoreError) (r : Byte) :
    (s.acqEnd e r).mem = s.mem := rfl
@[simp] theorem acqEnd_status (s : State) (e : Option CoreError) (r : Byte) :
    (s.acqEnd e r).status = s.status.completed e r := rfl
@[simp] theorem acqEnd_lba (s : State) (e : Option CoreError) (r : Byte) :
    (s.acqEnd e r).lba = s.lba := rfl
@[simp] theorem acqEnd_ctx (s : State) (e : Option CoreError) (r : Byte) :
    (s.acqEnd e r).ctx = { s.ctx with acqPhase := .inactive, fsm := .idle } := rfl
@[simp] theorem acqEnd_inputs (s : State) (e : Option CoreError) (r : Byte) :
    (s.acqEnd e r).inputs = s.inputs := rfl
@[simp] theorem acqEnd_outputs (s : State) (e : Option CoreError) (r : Byte) :
    (s.acqEnd e r).outputs = s.outputs := rfl

/-! `granted` -/

@[simp] theorem granted_br (s : State) (i : Word) :
    (s.granted i).br = s.br := rfl
@[simp] theorem granted_cr (s : State) (i : Word) :
    (s.granted i).cr = s.cr := rfl
@[simp] theorem granted_mem (s : State) (i : Word) :
    (s.granted i).mem = s.mem := rfl
@[simp] theorem granted_status (s : State) (i : Word) :
    (s.granted i).status = s.status := rfl
@[simp] theorem granted_lba (s : State) (i : Word) :
    (s.granted i).lba = s.lba := rfl
@[simp] theorem granted_ctx (s : State) (i : Word) :
    (s.granted i).ctx = { s.ctx with sid := i, chal := initialChallenge, fsm := .sendch } := rfl
@[simp] theorem granted_inputs (s : State) (i : Word) :
    (s.granted i).inputs = s.inputs := rfl
@[simp] theorem granted_outputs (s : State) (i : Word) :
    (s.granted i).outputs = s.outputs := rfl

/-! `key1Received` -/

@[simp] theorem key1Received_br (s : State) (k : Block) :
    (s.key1Received k).br = s.br := rfl
@[simp] theorem key1Received_cr (s : State) (k : Block) :
    (s.key1Received k).cr = s.cr := rfl
@[simp] theorem key1Received_mem (s : State) (k : Block) :
    (s.key1Received k).mem = s.mem := rfl
@[simp] theorem key1Received_status (s : State) (k : Block) :
    (s.key1Received k).status = s.status := rfl
@[simp] theorem key1Received_lba (s : State) (k : Block) :
    (s.key1Received k).lba = s.lba := rfl
@[simp] theorem key1Received_ctx (s : State) (k : Block) :
    (s.key1Received k).ctx = { s.ctx with key1 := k, fsm := .resv } := rfl
@[simp] theorem key1Received_inputs (s : State) (k : Block) :
    (s.key1Received k).inputs = s.inputs := rfl
@[simp] theorem key1Received_outputs (s : State) (k : Block) :
    (s.key1Received k).outputs = s.outputs := rfl

/-! `clearContext` -/

@[simp] theorem clearContext_br (s : State) :
    (s.clearContext).br = s.br := rfl
@[simp] theorem clearContext_cr (s : State) :
    (s.clearContext).cr = s.cr := rfl
@[simp] theorem clearContext_mem (s : State) :
    (s.clearContext).mem = s.mem := rfl
@[simp] theorem clearContext_status (s : State) :
    (s.clearContext).status = { s.status with busyWr := false, hostErr := false } := rfl
@[simp] theorem clearContext_lba (s : State) :
    (s.clearContext).lba = s.lba := rfl
@[simp] theorem clearContext_ctx (s : State) :
    (s.clearContext).ctx = Context.reset := rfl
@[simp] theorem clearContext_inputs (s : State) :
    (s.clearContext).inputs = s.inputs := rfl
@[simp] theorem clearContext_outputs (s : State) :
    (s.clearContext).outputs = s.outputs := rfl

/-! `resetCore` -/

@[simp] theorem resetCore_br (s : State) :
    (s.resetCore).br = State.reset.br := rfl
@[simp] theorem resetCore_cr (s : State) :
    (s.resetCore).cr = State.reset.cr := rfl
@[simp] theorem resetCore_mem (s : State) :
    (s.resetCore).mem = ⟨s.mem.resets + 1, []⟩ := rfl
@[simp] theorem resetCore_status (s : State) :
    (s.resetCore).status = Status.reset := rfl
@[simp] theorem resetCore_lba (s : State) :
    (s.resetCore).lba = 0 := rfl
@[simp] theorem resetCore_ctx (s : State) :
    (s.resetCore).ctx = Context.reset := rfl
@[simp] theorem resetCore_inputs (s : State) :
    (s.resetCore).inputs = s.inputs := rfl
@[simp] theorem resetCore_outputs (s : State) :
    (s.resetCore).outputs = s.outputs := rfl

/-! The status updates -/

@[simp] theorem accepted_busy (t : Status) : t.accepted.busy = t.busy := rfl
@[simp] theorem accepted_done (t : Status) : t.accepted.done = false := rfl
@[simp] theorem accepted_err (t : Status) : t.accepted.err = false := rfl
@[simp] theorem accepted_anom (t : Status) : t.accepted.anom = false := rfl
@[simp] theorem accepted_busyWr (t : Status) : t.accepted.busyWr = t.busyWr := rfl
@[simp] theorem accepted_hostErr (t : Status) : t.accepted.hostErr = t.hostErr := rfl
@[simp] theorem accepted_errCode (t : Status) : t.accepted.errCode = 0x00 := rfl
@[simp] theorem accepted_result (t : Status) : t.accepted.result = 0x00 := rfl
@[simp] theorem completed_busy (t : Status) (e : Option CoreError) (r : Byte) : (t.completed e r).busy = false := rfl
@[simp] theorem completed_done (t : Status) (e : Option CoreError) (r : Byte) : (t.completed e r).done = true := rfl
@[simp] theorem completed_err (t : Status) (e : Option CoreError) (r : Byte) : (t.completed e r).err = e.isSome := rfl
@[simp] theorem completed_anom (t : Status) (e : Option CoreError) (r : Byte) : (t.completed e r).anom = t.anom := rfl
@[simp] theorem completed_busyWr (t : Status) (e : Option CoreError) (r : Byte) :
    (t.completed e r).busyWr = t.busyWr := rfl
@[simp] theorem completed_hostErr (t : Status) (e : Option CoreError) (r : Byte) :
    (t.completed e r).hostErr = t.hostErr := rfl
@[simp] theorem completed_errCode (t : Status) (e : Option CoreError) (r : Byte) :
    (t.completed e r).errCode = outcomeCode e := rfl
@[simp] theorem completed_result (t : Status) (e : Option CoreError) (r : Byte) :
    (t.completed e r).result = r := rfl

end Sys2Proof.Machine
end

