-- ==== Sys2Proof/Laws/Ops.lean ====
section
/-! SUPPORT. What each shared operation can do, said once: submission, operands, list operations of the units, sessions
and FSM steps. -/

namespace Sys2Proof.Machine

/-- A submitted command is dropped, or accepted and run by its rule. -/
theorem submit_cases (s : State) (rule : State → State) :
    (s.status.busy = true ∧ s.submit rule = s.dropBusy) ∨
      (s.status.busy = false ∧ s.submit rule = rule s.accept) := by
  unfold State.submit
  cases h : s.status.busy <;> simp

theorem submit_idle {s : State} (h : s.status.busy = false) (rule : State → State) :
    s.submit rule = rule s.accept := by
  simp [State.submit, h]

theorem submit_busy {s : State} (h : s.status.busy = true) (rule : State → State) :
    s.submit rule = s.dropBusy := by
  simp [State.submit, h]

@[simp] theorem withOperand_some {α : Type} (s : State) (x : α) (rule : State → α → State) :
    s.withOperand (some x) rule = rule s x := rfl

@[simp] theorem withOperand_none {α : Type} (s : State) (rule : State → α → State) :
    s.withOperand none rule = s.illegal := rfl

@[simp] theorem generateOnto_length (n : Nat) (g : Generator) (out : List Byte) :
    (generateOnto n g out).length = n + out.length := by
  induction n generalizing g out with
  | zero => simp [generateOnto]
  | succ n ih => simp [generateOnto, ih]; omega

@[simp] theorem generate_length (s : Block) (n : Nat) : (generate s n).length = n := by
  simp [generate]

@[simp] theorem xorCyclic_length (bk : Block) (i : Nat) (vs : List Byte) : (xorCyclic bk i vs).length = vs.length := by
  induction vs generalizing i with
  | nil => rfl
  | cons v vs ih => simp [xorCyclic, ih]

theorem xorCyclic_getD (bk : Block) (i k : Nat) (vs : List Byte) (h : k < vs.length) :
    (xorCyclic bk i vs).getD k 0 = vs.getD k 0 ^^^ bk.rev.get (Fin.ofNat 5 (i + k)) := by
  induction vs generalizing i k with
  | nil => simp at h
  | cons v vs ih =>
    cases k with
    | zero => simp [xorCyclic]
    | succ k =>
      have := ih (i + 1) k (by simpa using h)
      rw [show i + 1 + k = i + (k + 1) by omega] at this
      simpa [xorCyclic] using this

@[simp] theorem descrambleBytes_length (cfg : Config) (p : LfsrPair) (acc : Nat) (vs : List Byte) :
    (descrambleBytes cfg p acc vs).length = vs.length := by
  induction vs generalizing p acc with
  | nil => rfl
  | cons v vs ih => simp [descrambleBytes, ih]

/-- A session ends in a fault only in the decryption phase, which no session runs in. -/
theorem sessionEnd_cases (s : State) (e : Option CoreError) :
    (s.ctx.acqPhase = .inactive ∧ s.sessionEnd e = .next (s.endAuth e)) ∨
      (s.ctx.acqPhase = .diskSession ∧ s.sessionEnd e = .next (s.endDiskSession e)) ∨
      (s.ctx.acqPhase = .titleSession ∧ s.sessionEnd e = .next (s.endTitleSession e)) ∨
      (s.ctx.acqPhase = .decryption ∧ s.sessionEnd e = .fault .noSessionToEnd) := by
  unfold State.sessionEnd
  cases h : s.ctx.acqPhase <;> simp

/-- The pending call and the FSM state that makes it pending (44_authentication R201). -/
theorem pendingCall_cases {s : State} {c : Call} (h : pendingCall s = some c) :
    s.status.busy = true ∧
      ((s.ctx.fsm = .req ∧ c = .openSession) ∨
        (s.ctx.fsm = .sendch ∧ c = .sendChallenge s.ctx.sid s.ctx.chal) ∨
        (s.ctx.fsm = .recvk1 ∧ c = .receiveKey1 s.ctx.sid) ∨
        (s.ctx.fsm = .recvch ∧ c = .receiveChallenge s.ctx.sid) ∨
        (s.ctx.fsm = .sendk2 ∧ c = .sendKey2 s.ctx.sid s.ctx.key2) ∨
        (s.ctx.fsm = .fetch ∧ s.ctx.mode = .disk ∧ c = .readDiskKeyStructure s.ctx.sid) ∨
        (s.ctx.fsm = .fetch ∧ s.ctx.mode = .title ∧ c = .readTitleKeyStructure s.ctx.sid s.lba)) := by
  unfold pendingCall at h
  cases hb : s.status.busy
  · simp [hb] at h
  · refine ⟨rfl, ?_⟩
    cases hf : s.ctx.fsm <;> simp [hb, hf] at h
    case fetch => cases hm : s.ctx.mode <;> simp [hm] at h <;> simp [h]
    all_goals simp [h]

/-- `answers` decides the answer types of 44_authentication R203. -/
theorem answers_iff (c : Call) (a : Answer) : answers c a = true ↔ AnswersCall c a := by
  cases c <;> cases a <;> simp [answers, AnswersCall]

/-- An answer step either does nothing, or runs the rule of an answer that the pending call has. -/
theorem answerStep_cases (cfg : Config) (a : Answer) (s : State) :
    answerStep cfg a s = .next s ∨
      ∃ c, pendingCall s = some c ∧ answers c a = true ∧ answerStep cfg a s = (s.emit (.call c)).answered cfg a := by
  unfold answerStep
  cases h : pendingCall s with
  | none => exact .inl rfl
  | some c =>
    cases ha : answers c a
    · exact .inl (by simp [ha])
    · exact .inr ⟨c, rfl, ha, by simp [ha]⟩

/-- The core's own turn either does nothing, or is one of the three internal steps. -/
theorem internalStep_cases (cfg : Config) (s : State) :
    internalStep cfg s = .next s ∨
      (s.status.busy = true ∧
        ((s.ctx.fsm = .resv ∧ internalStep cfg s = s.resolveStep cfg) ∨
          (s.ctx.fsm = .busk ∧ internalStep cfg s = s.busKeyStep cfg) ∨
          (s.ctx.fsm = .dtks ∧ internalStep cfg s = .next (s.decryptStep cfg)))) := by
  unfold internalStep
  cases hb : s.status.busy
  · exact .inl (by simp)
  · cases hf : s.ctx.fsm <;> simp

/-- What one step is, by the next input. -/
theorem step_cases (s : State) :
    (s.inputs = [] ∧ step s = internalStep Config.platform s) ∨
      ∃ i rest, s.inputs = i :: rest ∧ step s = takeInput i { s with inputs := rest } := by
  unfold step
  cases h : s.inputs with
  | nil => exact .inl ⟨rfl, rfl⟩
  | cons i rest => exact .inr ⟨i, rest, rfl, rfl⟩

/-- One step with an input waiting. -/
theorem step_input {s : State} {i : Input} {rest : List Input} (h : s.inputs = i :: rest) :
    step s = takeInput i { s with inputs := rest } := by
  unfold step
  rw [h]

@[simp] theorem runSteps_zero (s : State) : runSteps 0 s = .next s := rfl

/-- The first of several steps. -/
theorem runSteps_succ {s t : State} (k : Nat) (h : step s = .next t) : runSteps (k + 1) s = runSteps k t := by
  unfold runSteps
  rw [h]
  cases k <;> rfl

/-- Every command word has a meaning, and no meaning stops the machine. -/
theorem submitCommand_next (w : Word) (s : State) : ∃ t, submitCommand w s = .next t := by
  unfold submitCommand
  cases decode w with
  | error e => exact ⟨_, rfl⟩
  | ok i => cases i <;> exact ⟨_, rfl⟩

end Sys2Proof.Machine
end

