-- ==== Sys2Proof/Laws/Registers.lean ====
section
/-! SUPPORT. The laws of Blocks, Challenges, operand registers and operand fields. -/

namespace Sys2Proof

theorem Block.ext_get {a b : Block} (h : ∀ i, a.get i = b.get i) : a = b := by
  cases a; cases b
  have h0 := h 0; have h1 := h 1; have h2 := h 2; have h3 := h 3; have h4 := h 4
  simp only [Block.get] at h0 h1 h2 h3 h4
  subst h0; subst h1; subst h2; subst h3; subst h4
  rfl

@[simp] theorem Block.get_ofFn (f : Fin 5 → Byte) (i : Fin 5) : (Block.ofFn f).get i = f i := by
  fin_cases i <;> rfl

@[simp] theorem Block.get_set (b : Block) (i j : Fin 5) (v : Byte) :
    (b.set i v).get j = if j = i then v else b.get j := by
  simp [Block.set]

@[simp] theorem Block.get_xor (a b : Block) (i : Fin 5) : (a.xor b).get i = a.get i ^^^ b.get i := by
  simp [Block.xor]

theorem Block.get_ofBytesAt (f : Nat → Byte) (start : Nat) (i : Fin 5) :
    (Block.ofBytesAt f start).get i = f (start + i.val) := by
  fin_cases i <;> rfl

theorem Block.get_rev (b : Block) (i : Fin 5) : b.rev.get i = b.get (4 - i) := by
  fin_cases i <;> rfl

theorem Challenge.ext_get {a b : Challenge} (h : ∀ i, a.get i = b.get i) : a = b := by
  rcases a with ⟨⟨_, _, _, _, _⟩, ⟨_, _, _, _, _⟩⟩
  rcases b with ⟨⟨_, _, _, _, _⟩, ⟨_, _, _, _, _⟩⟩
  have h0 := h 0; have h1 := h 1; have h2 := h 2; have h3 := h 3; have h4 := h 4
  have h5 := h 5; have h6 := h 6; have h7 := h 7; have h8 := h 8; have h9 := h 9
  simp only [Challenge.get] at h0 h1 h2 h3 h4 h5 h6 h7 h8 h9
  subst h0; subst h1; subst h2; subst h3; subst h4; subst h5; subst h6; subst h7; subst h8; subst h9
  rfl

@[simp] theorem Challenge.get_ofFn (f : Fin 10 → Byte) (i : Fin 10) : (Challenge.ofFn f).get i = f i := by
  fin_cases i <;> rfl

@[simp] theorem Challenge.get_set (c : Challenge) (i j : Fin 10) (v : Byte) :
    (c.set i v).get j = if j = i then v else c.get j := by
  simp [Challenge.set]

namespace Machine

/-- Reading the operand registers after a write. -/
theorem readBR_writeBR (s : State) (r q : BrIndex) (b : Block) :
    (s.writeBR r b).readBR q = if q = r then b else s.readBR q := by
  have key : (q = r) ↔ r.toNat = q.toNat := by
    constructor
    · rintro rfl; rfl
    · intro h; exact (BitVec.eq_of_toNat_eq h).symm
  unfold State.readBR State.writeBR
  show (s.br.set r.toNat b r.isLt)[q.toNat]'q.isLt = _
  rw [Vector.getElem_set]
  by_cases h : r.toNat = q.toNat
  · rw [if_pos h, if_pos (key.mpr h)]
  · rw [if_neg h, if_neg (fun e => h (key.mp e))]; rfl

theorem readCR_writeCR (s : State) (c d : Fin 2) (x : Challenge) :
    (s.writeCR c x).readCR d = if d = c then x else s.readCR d := by
  unfold State.readCR State.writeCR
  show (s.cr.set c.val x c.isLt)[d.val]'d.isLt = _
  rw [Vector.getElem_set]
  by_cases h : c.val = d.val
  · rw [if_pos h, if_pos (Fin.ext h.symm)]
  · rw [if_neg h, if_neg (fun e => h (by rw [e]))]; rfl

/-- A `CR` field denotes an index exactly when it is well formed. -/
theorem crIndex_isSome (f : CrField) : (crIndex? f).isSome = CrField.ok f := by
  revert f; decide

/-- A GEN length that is well formed denotes its number. -/
theorem length_eq {imm : Imm} (h : imm.isLength = true) : length? imm = some imm.toNat := by
  simp only [Imm.isLength, Bool.and_eq_true, decide_eq_true_eq] at h
  simp [length?, h]

/-- An LDDK offset that is well formed denotes its number. -/
theorem diskKeyOffset_eq {imm : Imm} (h : imm.isDiskKeyOffset = true) : diskKeyOffset? imm = some imm.toNat := by
  simp only [Imm.isDiskKeyOffset, decide_eq_true_eq] at h
  simp [diskKeyOffset?, h]

/-- An AUTH mode that is well formed denotes a mode. -/
theorem mode_isSome {imm : Imm} (h : imm.isMode = true) :
    (imm.toNat = 0 ∧ mode? imm = some .disk) ∨ (imm.toNat = 1 ∧ mode? imm = some .title) := by
  simp only [Imm.isMode, decide_eq_true_eq] at h
  rcases Nat.le_one_iff_eq_zero_or_eq_one.mp h with h | h <;> simp [mode?, h]

end Machine
end Sys2Proof
end

