-- ==== Sys2Proof/Laws/Commands.lean ====
section
/-! SUPPORT. What a command can do, said once: dropped, completed at once as a primitive command, a session started, or
CLRCTX. -/

namespace Sys2Proof.Machine

/-- What every completed primitive command does beside its own result: it leaves LBA, the context and the queues, keeps
memory canonical and the sticky bits, and leaves STATUS done and consistent. -/
structure Primitive (s t : State) : Prop where
  lba : t.lba = s.lba
  ctx : t.ctx = s.ctx
  inputs : t.inputs = s.inputs
  outputs : t.outputs = s.outputs
  resets : t.mem.resets = s.mem.resets
  memory : s.mem.wf → t.mem.wf
  busy : t.status.busy = false
  busyWr : t.status.busyWr = s.status.busyWr
  hostErr : t.status.hostErr = s.status.hostErr
  sound : StatusSound t.status

/-- Every completion leaves STATUS consistent. -/
theorem completed_sound (t : Status) (e : Option CoreError) (r : Byte) : StatusSound (t.completed e r) :=
  ⟨fun h => (Bool.false_ne_true h).elim, e, rfl, rfl⟩

/-- Completing is primitive when what came before it is. -/
theorem complete_primitive {s t : State} (e : Option CoreError) (r : Byte) (h1 : t.lba = s.lba)
    (h2 : t.ctx = s.ctx) (h3 : t.inputs = s.inputs) (h4 : t.outputs = s.outputs)
    (h5 : t.mem.resets = s.mem.resets) (h6 : s.mem.wf → t.mem.wf) (h7 : t.status = s.status.accepted) :
    Primitive s (t.complete e r) :=
  ⟨h1, h2, h3, h4, h5, h6, rfl, by simp [h7], by simp [h7], completed_sound _ _ _⟩

theorem primitive_markAnomaly {s t : State} (h : Primitive s t) (o : Imm) : Primitive s (t.markAnomaly o) := by
  obtain ⟨h1, h2, h3, h4, h5, h6, h7, h8, h9, h10, h11⟩ := h
  exact ⟨h1, h2, h3, h4, h5, h6, h7, h8, h9, fun h => absurd (h7.symm.trans h) (by simp), h11⟩

theorem writeBR_primitive (s : State) (rd : BrIndex) (b : Block) (e r) :
    Primitive s ((s.accept.writeBR rd b).complete e r) :=
  complete_primitive e r rfl rfl rfl rfl rfl id rfl
theorem writeCR_primitive (s : State) (rd : Fin 2) (b : Challenge) (e r) :
    Primitive s ((s.accept.writeCR rd b).complete e r) :=
  complete_primitive e r rfl rfl rfl rfl rfl id rfl
theorem status_primitive (s : State) (e r) : Primitive s ((s.accept).complete e r) :=
  complete_primitive e r rfl rfl rfl rfl rfl id rfl
theorem store_primitive (s : State) (base : Nat) (vs : List Byte) (h : base + vs.length ≤ bufferEnd) (e r) :
    Primitive s ((s.accept.store base vs).complete e r) :=
  complete_primitive e r rfl rfl rfl rfl rfl (fun hw => write_wf hw h) rfl

/-- A command that starts no session and is not CLRCTX is dropped, or completes at once as a primitive command. -/
theorem exec_primitive {i : Instr} {s t : State} (h : exec i s = .next t) (h1 : ∀ m, i ≠ .auth m) (h2 : i ≠ .acq)
    (h3 : i ≠ .clrctx) :
    (s.status.busy = true ∧ t = s.dropBusy) ∨ (s.status.busy = false ∧ Primitive s t) := by
  have key : ∀ rule : State → State, Primitive s (rule s.accept) →
      Host.Outcome.next (s.submit rule) = (Host.Outcome.next t : Result) →
        (s.status.busy = true ∧ t = s.dropBusy) ∨ (s.status.busy = false ∧ Primitive s t) := by
    intro rule hr hn
    cases hn
    rcases submit_cases s rule with ⟨hb, he⟩ | ⟨hb, he⟩
    · exact .inl ⟨hb, he⟩
    · exact .inr ⟨hb, by rw [he]; exact hr⟩
  have op : ∀ {α : Type} (o : Option α) (rule : State → α → State),
      (∀ x, o = some x → Primitive s (rule s.accept x)) → Primitive s (s.accept.withOperand o rule) := by
    intro α o rule hr
    cases o with
    | none => exact status_primitive s _ _
    | some x => exact hr x rfl
  cases i with
  | nop => exact key _ (status_primitive s _ _) h
  | gen rs len =>
    refine key _ (op _ _ fun n hn => store_primitive _ _ _ ?_ _ _) h
    unfold length? at hn
    split at hn <;> cases hn
    simp [ksBase, bufferEnd]; omega
  | bc rd cs var => exact key _ (op _ _ fun c _ => writeBR_primitive _ _ _ _ _) h
  | k1t rd cs var => exact key _ (op _ _ fun c _ => writeBR_primitive _ _ _ _ _) h
  | k2t rd cs var => exact key _ (op _ _ fun c _ => writeBR_primitive _ _ _ _ _) h
  | bkt rd cs var => exact key _ (op _ _ fun c _ => writeBR_primitive _ _ _ _ _) h
  | findv cs ra =>
    refine key _ (op _ _ fun c _ => ?_) h
    cases resolveVariant Config.platform (s.accept.readCR c) (s.accept.readBR ra) <;> exact status_primitive s _ _
  | initch cd => exact key _ (op _ _ fun c _ => writeCR_primitive _ _ _ _ _) h
  | cat cd ra rb => exact key _ (op _ _ fun c _ => writeCR_primitive _ _ _ _ _) h
  | mix rd rs inv => exact key _ (writeBR_primitive _ _ _ _ _) h
  | lddk rd off => exact key _ (op _ _ fun c _ => writeBR_primitive _ _ _ _ _) h
  | dtk rd rs =>
    refine key _ ?_ h
    rcases decryptTitleKey Config.platform s.accept.dk (s.accept.readBR rs) with _ | ⟨tk, j⟩
    · exact status_primitive s _ _
    · exact writeBR_primitive _ _ _ _ _
  | xdk rs => exact key _ (store_primitive _ _ _ (by simp [dkBase, bufferEnd]) _ _) h
  | xbk rd rs => exact key _ (writeBR_primitive _ _ _ _ _) h
  | dscr rs o =>
    refine key _ ?_ h
    split
    · exact primitive_markAnomaly (status_primitive s _ _) o
    · exact primitive_markAnomaly
        (store_primitive s _ _ (by simp [secBase, bufferEnd, descrambledLength]; omega) _ _) o
  | descr o =>
    refine key _ ?_ h
    split
    · exact primitive_markAnomaly (status_primitive s _ _) o
    split
    · exact primitive_markAnomaly (status_primitive s _ _) o
    · exact primitive_markAnomaly
        (store_primitive s _ _ (by simp [secBase, bufferEnd, descrambledLength]; omega) _ _) o
  | auth m => exact absurd rfl (h1 m)
  | acq => exact absurd rfl h2
  | clrctx => exact absurd rfl h3

/-- What AUTH does: dropped, completed as illegal, or a session started. -/
theorem execAuth_cases {m : Imm} {s t : State} (h : exec (.auth m) s = .next t) :
    (s.status.busy = true ∧ t = s.dropBusy) ∨
      (s.status.busy = false ∧ (Primitive s t ∨ ∃ md, t = s.accept.startAuth md)) := by
  cases h
  rcases submit_cases s _ with ⟨hb, he⟩ | ⟨hb, he⟩
  · exact .inl ⟨hb, he⟩
  · refine .inr ⟨hb, ?_⟩
    rw [he]
    cases mode? m
    · exact .inl (status_primitive s _ _)
    · exact .inr ⟨_, rfl⟩

/-- What a command word does: it is dropped, completes at once, starts AUTH or ACQ, or is CLRCTX. -/
theorem submitCommand_cases {w : Word} {s t : State} (h : submitCommand w s = .next t) :
    (s.status.busy = true ∧ t = s.dropBusy) ∨ (s.status.busy = false ∧ Primitive s t) ∨
    (s.status.busy = false ∧ ∃ md, t = s.accept.startAuth md) ∨
    (s.status.busy = false ∧ decode w = .ok .acq ∧ t = s.accept.startAcq) ∨
    (decode w = .ok .clrctx ∧ t = if s.status.busy then s.abort else s.accept.clearContext.complete none 0x00) := by
  unfold submitCommand at h
  cases hd : decode w with
  | error e =>
    rw [hd] at h; cases h
    rcases submit_cases s State.illegal with ⟨hb, he⟩ | ⟨hb, he⟩
    · exact .inl ⟨hb, he⟩
    · exact .inr (.inl ⟨hb, by rw [he]; exact status_primitive s _ _⟩)
  | ok i =>
    rw [hd] at h
    change exec i s = _ at h
    by_cases h1 : i = .acq
    · subst h1; cases h
      rcases submit_cases s _ with ⟨hb, he⟩ | ⟨hb, he⟩
      · exact .inl ⟨hb, he⟩
      · exact .inr (.inr (.inr (.inl ⟨hb, rfl, he⟩)))
    by_cases h2 : i = .clrctx
    · subst h2; cases h
      exact .inr (.inr (.inr (.inr ⟨rfl, rfl⟩)))
    by_cases h3 : ∃ m, i = .auth m
    · obtain ⟨m, rfl⟩ := h3
      rcases execAuth_cases h with h | ⟨h, h' | h'⟩
      · exact .inl h
      · exact .inr (.inl ⟨h, h'⟩)
      · exact .inr (.inr (.inl ⟨h, h'⟩))
    · rcases exec_primitive h (fun m e => h3 ⟨m, e⟩) h1 h2 with h | h
      · exact .inl h
      · exact .inr (.inl h)
end Sys2Proof.Machine
end

