-- ==== Sys2Proof/Laws/PerInstr.lean ====
section
/-! SUPPORT. The statements about every command as syntax, one lemma per constructor. -/

namespace Sys2Proof.Laws

/-- The command's fields are read back as the command when it is well formed. -/
def FieldRoundTrip.Statement (i : Instr) : Prop :=
  i.wellFormed = true → decodeFields (encodeFields i) = .ok i

theorem FieldRoundTrip.nop : FieldRoundTrip.Statement .nop := fun _ => rfl

theorem FieldRoundTrip.gen (rs : BrIndex) (len : Imm) : FieldRoundTrip.Statement (.gen rs len) := by
  intro h
  simp only [Instr.wellFormed] at h
  simp [encodeFields, decodeFields, checked, Fields.ofOp, h]

theorem FieldRoundTrip.bc (rd : BrIndex) (cs : CrField) (var : Variant) : FieldRoundTrip.Statement (.bc rd cs var) := by
  intro h
  simp only [Instr.wellFormed] at h
  simp [encodeFields, decodeFields, checked, Fields.ofOp, h]

theorem FieldRoundTrip.k1t (rd : BrIndex) (cs : CrField) (var : Variant) : FieldRoundTrip.Statement (.k1t rd cs var) := by
  intro h
  simp only [Instr.wellFormed] at h
  simp [encodeFields, decodeFields, checked, Fields.ofOp, h]

theorem FieldRoundTrip.k2t (rd : BrIndex) (cs : CrField) (var : Variant) : FieldRoundTrip.Statement (.k2t rd cs var) := by
  intro h
  simp only [Instr.wellFormed] at h
  simp [encodeFields, decodeFields, checked, Fields.ofOp, h]

theorem FieldRoundTrip.bkt (rd : BrIndex) (cs : CrField) (var : Variant) : FieldRoundTrip.Statement (.bkt rd cs var) := by
  intro h
  simp only [Instr.wellFormed] at h
  simp [encodeFields, decodeFields, checked, Fields.ofOp, h]

theorem FieldRoundTrip.findv (cs : CrField) (ra : BrIndex) : FieldRoundTrip.Statement (.findv cs ra) := by
  intro h
  simp only [Instr.wellFormed] at h
  simp [encodeFields, decodeFields, checked, Fields.ofOp, h]

theorem FieldRoundTrip.initch (cd : CrField) : FieldRoundTrip.Statement (.initch cd) := by
  intro h
  simp only [Instr.wellFormed] at h
  simp [encodeFields, decodeFields, checked, Fields.ofOp, h]

theorem FieldRoundTrip.cat (cd : CrField) (ra : BrIndex) (rb : BrIndex) : FieldRoundTrip.Statement (.cat cd ra rb) := by
  intro h
  simp only [Instr.wellFormed] at h
  simp [encodeFields, decodeFields, checked, Fields.ofOp, h]

theorem FieldRoundTrip.mix (rd : BrIndex) (rs : BrIndex) (inv : Bool) : FieldRoundTrip.Statement (.mix rd rs inv) := by
  intro _; cases inv <;> rfl

theorem FieldRoundTrip.lddk (rd : BrIndex) (off : Imm) : FieldRoundTrip.Statement (.lddk rd off) := by
  intro h
  simp only [Instr.wellFormed] at h
  simp [encodeFields, decodeFields, checked, Fields.ofOp, h]

theorem FieldRoundTrip.dtk (rd : BrIndex) (rs : BrIndex) : FieldRoundTrip.Statement (.dtk rd rs) := fun _ => rfl

theorem FieldRoundTrip.xdk (rs : BrIndex) : FieldRoundTrip.Statement (.xdk rs) := fun _ => rfl

theorem FieldRoundTrip.xbk (rd : BrIndex) (rs : BrIndex) : FieldRoundTrip.Statement (.xbk rd rs) := fun _ => rfl

theorem FieldRoundTrip.dscr (rs : BrIndex) (offset : Imm) : FieldRoundTrip.Statement (.dscr rs offset) := fun _ => rfl

theorem FieldRoundTrip.auth (mode : Imm) : FieldRoundTrip.Statement (.auth mode) := by
  intro h
  simp only [Instr.wellFormed] at h
  simp [encodeFields, decodeFields, checked, Fields.ofOp, h]

theorem FieldRoundTrip.acq : FieldRoundTrip.Statement .acq := fun _ => rfl

theorem FieldRoundTrip.descr (offset : Imm) : FieldRoundTrip.Statement (.descr offset) := fun _ => rfl

theorem FieldRoundTrip.clrctx : FieldRoundTrip.Statement .clrctx := fun _ => rfl

/-- A word is the word of its fields. -/
theorem wordOf_fieldsOf (w : Word) : wordOf (fieldsOf w) = w := by
  apply BitVec.eq_of_getLsbD_eq
  intro k hk
  simp only [wordOf, fieldsOf, BitVec.getLsbD_append, BitVec.getLsbD_extractLsb']
  interval_cases k <;> simp

/-- The fields of a word made of fields are those fields. -/
theorem fieldsOf_wordOf (f : Fields) : fieldsOf (wordOf f) = f := by
  cases f
  simp only [wordOf, fieldsOf, Fields.mk.injEq]
  refine ⟨?_, ?_, ?_, ?_, ?_, ?_, ?_⟩ <;>
  · apply BitVec.eq_of_getLsbD_eq
    intro k hk
    simp only [BitVec.getLsbD_append, BitVec.getLsbD_extractLsb']
    interval_cases k <;> simp

end Sys2Proof.Laws
end

