-- ==== Sys2Proof/Tests/Slice0.lean ====
section
/-! SUPPORT. The model's own tests, each from the spec's encodings and test vectors (30_encoding R97, R106; 95 V1-V57),
and a witness for the hypotheses of every obligation that has some. -/

open Sys2Proof Sys2Proof.Machine

namespace Sys2Proof.Tests

/-! ### Well-formedness: each check refuses a term -/

theorem test_bc_challenge_index_refused : (Instr.bc 0 2 0).wellFormed = false := by decide
theorem test_k1t_challenge_index_refused : (Instr.k1t 0 7 0).wellFormed = false := by decide
theorem test_k2t_challenge_index_refused : (Instr.k2t 0 3 31).wellFormed = false := by decide
theorem test_bkt_challenge_index_refused : (Instr.bkt 7 4 0).wellFormed = false := by decide
theorem test_findv_challenge_index_refused : (Instr.findv 2 0).wellFormed = false := by decide
theorem test_initch_challenge_index_refused : (Instr.initch 2).wellFormed = false := by decide
theorem test_cat_challenge_index_refused : (Instr.cat 2 0 0).wellFormed = false := by decide
theorem test_gen_lengths_refused : (Instr.gen 0 0).wellFormed = false ∧ (Instr.gen 0 33).wellFormed = false := by decide
theorem test_lddk_offset_refused : (Instr.lddk 0 2044).wellFormed = false := by decide
theorem test_auth_mode_refused : (Instr.auth 2).wellFormed = false := by decide

/-- The last legal value of each checked field is accepted. -/
theorem test_boundary_operands_accepted :
    (Instr.bc 7 1 31).wellFormed = true ∧ (Instr.gen 7 1).wellFormed = true ∧ (Instr.gen 7 32).wellFormed = true ∧
      (Instr.lddk 7 2043).wellFormed = true ∧ (Instr.auth 1).wellFormed = true := by decide

/-! ### Decoding: words written out from the fields of 30_encoding R91 and the opcode map R97 -/

theorem test_decode_control :
    decode 0b00000000000000000000000000000000#32 = .ok .nop ∧
      decode 0b01001100000000000000000000000000#32 = .ok .clrctx := by decide

theorem test_decode_generator :
    decode 0b00000100000000000000000000011110#32 = .ok (.gen 0 30) ∧
      decode 0b00000100000000101000000000000101#32 = .ok (.gen 5 5) := by decide

theorem test_decode_cipher :
    decode 0b00001011111000001000000000000000#32 = .ok (.bc 0 1 31) ∧
      decode 0b00001100111001000000000000000000#32 = .ok (.k1t 1 0 7) ∧
      decode 0b00010000111001000000000000000000#32 = .ok (.k2t 1 0 7) ∧
      decode 0b00010100111010001000000000000000#32 = .ok (.bkt 2 1 7) := by decide

theorem test_decode_challenge :
    decode 0b00011000000000000001000000000000#32 = .ok (.findv 0 1) ∧
      decode 0b00011100000001000000000000000000#32 = .ok (.initch 1) ∧
      decode 0b00100000000001001010000000000000#32 = .ok (.cat 1 1 2) := by decide

theorem test_decode_key_derivation :
    decode 0b00100100000011100000100000000000#32 = .ok (.mix 3 4 true) ∧
      decode 0b00100100000001001000000000000000#32 = .ok (.mix 1 1 false) ∧
      decode 0b00101000000100000000000000010100#32 = .ok (.lddk 4 20) ∧
      decode 0b00101100000011100000000000000000#32 = .ok (.dtk 3 4) ∧
      decode 0b00110000000000010000000000000000#32 = .ok (.xdk 2) ∧
      decode 0b00110100000100010000000000000000#32 = .ok (.xbk 4 2) := by decide

theorem test_decode_descrambler :
    decode 0b00111000000000011000000000010000#32 = .ok (.dscr 3 0x10) ∧
      decode 0b01001000000000000000000000010000#32 = .ok (.descr 0x10) := by decide

theorem test_decode_authentication :
    decode 0b01000000000000000000000000000001#32 = .ok (.auth 1) ∧
      decode 0b01000100000000000000000000000000#32 = .ok .acq := by decide

/-- 95 V6, V16, V23, V25, V33: illegal words, each rejected by its reason. -/
theorem test_illegal_words_rejected_by_name :
    decode 0x3C000000 = .error .reservedOpcode ∧ decode 0x50000000 = .error .reservedOpcode ∧
      decode 0x04000000 = .error .immediateRange ∧ decode 0x04000021 = .error .immediateRange ∧
      decode 0x281007FC = .error .immediateRange ∧ decode 0x40000002 = .error .immediateRange ∧
      decode 0x08010000 = .error .challengeIndex ∧ decode 0x1C080000 = .error .challengeIndex ∧
      decode 0x20080000 = .error .challengeIndex ∧ decode 0x04001008 = .error .nonzeroField ∧
      decode 0x0C001000 = .error .nonzeroField ∧ decode 0x18201000 = .error .nonzeroField ∧
      decode 0x24001000 = .error .nonzeroField ∧ decode 0x28108014 = .error .nonzeroField ∧
      decode 0x2C0E0800 = .error .nonzeroField ∧ decode 0x30050000 = .error .nonzeroField ∧
      decode 0x30010001 = .error .nonzeroField ∧ decode 0x48008000 = .error .nonzeroField := by decide

/-- The host's table words: 32 bits, those above `nbits` zero. -/
theorem test_table_word : decodeTableWord 32 0x240E0800 = some (.mix 3 4 true) ∧ decodeTableWord 32 0x3C000000 = none := by
  decide

/-! ### The units under the test configuration TCFG of 95 -/

/-- TCFG (95_test_vectors, "The test configuration"). -/
def tcfg : Config where
  bct0 x := 3 * x + 1
  bct1 x := x ^^^ 0xA5
  bct2 x := 5 * x + 7
  bct3 x := x.rotateLeft 1
  variants v := (5 * v.setWidth 8 + 7) ^^^ (8 * v.setWidth 8 + 3)
  secret := ⟨0x55, 0xD6, 0xC4, 0xC5, 0x28⟩
  permv1 v := 5 * v + 3
  permv2 v := 7 * v + 1
  tab1 x := x.rotateLeft 3 ^^^ 0x5A
  tab2 x := 7 * x + 3
  tab3 y := (13 * y + 1).setWidth 8
  playerKeys j := ⟨Fin.ofNat 2044 (5 * (j.val + 1)), Block.ofFn fun k => BitVec.ofNat 8 (16 * j.val + k.val + 1)⟩
  grantRetries := 3
  cssBase := 0

/-- The disk-key fixture of 95 V22. -/
def fixture (i : Nat) : Byte :=
  if i < 5 then [0x7A, 0xB7, 0xCE, 0x81, 0xEF].getD i 0
  else if 20 ≤ i ∧ i < 25 then [0xDE, 0x0B, 0x29, 0xA0, 0xF8].getD (i - 20) 0
  else 0

/-- 95 V1. -/
theorem test_generate_zero_seed : generate zeroBlock 8 = [0xCB, 0xEF, 0x68, 0x4E, 0x59, 0x07, 0xB4, 0xFE] := by
  decide +kernel

/-- 95 V3. -/
theorem test_generate_counting_seed : generate ⟨0x01, 0x23, 0x45, 0x67, 0x89⟩ 10 =
    [0x08, 0x57, 0x29, 0x38, 0x6F, 0x04, 0x8B, 0x25, 0xB9, 0x18] := by
  decide +kernel

/-- 95 V10. -/
theorem test_cipher_zero : cipher tcfg 0 zeroChallenge = ⟨0xF2, 0xB1, 0x86, 0x9D, 0x1B⟩ := by decide +kernel

/-- 95 V10. -/
theorem test_cipher_counting : cipher tcfg 0 initialChallenge = ⟨0xA4, 0xA2, 0x40, 0xDF, 0x81⟩ := by decide +kernel

/-- 95 V11. -/
theorem test_key1_transform : key1Transform tcfg 7 initialChallenge = ⟨0x96, 0x1F, 0x91, 0x81, 0xB4⟩ := by
  decide +kernel

/-- 95 V11. -/
theorem test_key2_transform : key2Transform tcfg 7 initialChallenge = ⟨0xF0, 0x74, 0xBB, 0xCE, 0x8B⟩ := by
  decide +kernel

/-- 95 V11. -/
theorem test_bus_key_transform : busKeyTransform tcfg 7 initialChallenge = ⟨0xD4, 0x0A, 0xEA, 0x18, 0xA3⟩ := by
  decide +kernel

/-- 95 V12. -/
theorem test_resolve_variant :
    resolveVariant tcfg initialChallenge ⟨0x96, 0x1F, 0x91, 0x81, 0xB4⟩ = some 7 ∧
      resolveVariant tcfg initialChallenge zeroBlock = none := by
  decide +kernel

/-- 95 V20. -/
theorem test_mix_plain : mix tcfg zeroBlock zeroBlock false = ⟨0xB5, 0xBE, 0x63, 0x9F, 0x3B⟩ := by decide +kernel

/-- 95 V20. -/
theorem test_mix_inverted : mix tcfg ⟨1, 2, 3, 4, 5⟩ ⟨0x10, 0x20, 0x30, 0x40, 0x50⟩ true =
    ⟨0xF2, 0xB5, 0xFD, 0x48, 0x2C⟩ := by
  decide +kernel

/-- 95 V22. -/
theorem test_decrypt_title_key :
    decryptTitleKey tcfg fixture ⟨0xA1, 0xB2, 0xC3, 0xD4, 0xE5⟩ = some (⟨0x6E, 0x5E, 0xB4, 0x4C, 0xE0⟩, 3) ∧
      decryptTitleKey tcfg (fun _ => 0) ⟨0xA1, 0xB2, 0xC3, 0xD4, 0xE5⟩ = none := by
  decide +kernel

/-- 95 V30, `DSCR r3, 0` and `DSCR r3, 0x54` on the counting sector: the first four bytes. -/
theorem test_descramble :
    descrambleBytes tcfg (pairSeed (saltedSeed (BitVec.ofNat 8) ⟨1, 2, 3, 4, 5⟩ 0)) 0 [0x80, 0x81, 0x82, 0x83] =
        [0x23, 0x57, 0xFC, 0xBB] ∧
      descrambleBytes tcfg (pairSeed (saltedSeed (BitVec.ofNat 8) ⟨1, 2, 3, 4, 5⟩ 0x54)) 0 [0x2C, 0x2D, 0x2E, 0x2F] =
        [0x16, 0xD4, 0xAC, 0x82] := by
  decide +kernel

/-! ### One command, one step -/

/-- The STATUS word a step leaves. -/
def statusAfter : Result → Option Word
  | .next t => some (statusWord t)
  | .fault _ => none
  | .refused _ => none

/-- The bytes of memory a step leaves. -/
def bytesAfter (base n : Nat) : Result → Option (List Byte)
  | .next t => some (t.mem.readRange base n)
  | .fault _ => none
  | .refused _ => none

/-- A `BR` register a step leaves. -/
def brAfter (r : BrIndex) : Result → Option Block
  | .next t => some (t.readBR r)
  | .fault _ => none
  | .refused _ => none

/-- A `CR` register a step leaves. -/
def crAfter (c : Fin 2) : Result → Option Challenge
  | .next t => some (t.readCR c)
  | .fault _ => none
  | .refused _ => none

/-- The last thing that left the core in a step. -/
def lastOutput : Result → Option Output
  | .next t => t.outputs.getLast?
  | .fault _ => none
  | .refused _ => none

/-- The reset state with two `BR` registers loaded. -/
def loaded : State := (State.reset.writeBR 2 ⟨0x11, 0x22, 0x33, 0x44, 0x55⟩).writeBR 4 ⟨0xA1, 0xB2, 0xC3, 0xD4, 0xE5⟩

/-- The state right after reset and an AUTH, about to take `i`. -/
def inSession (f : FsmState) (i : Input) : State :=
  { State.reset with
    status := { Status.reset with busy := true }
    ctx := { Context.reset with fsm := f, mode := .title, sid := 0x11 }
    inputs := [i] }

/-- 95 V40. -/
theorem test_nop : statusAfter (exec .nop State.reset) = some 0x00000002 := by decide +kernel

/-- 95 V1, V40. -/
theorem test_gen : statusAfter (exec (.gen 0 8) State.reset) = some 0x00000002 ∧
    bytesAfter 0x1000 8 (exec (.gen 0 8) State.reset) = some [0xCB, 0xEF, 0x68, 0x4E, 0x59, 0x07, 0xB4, 0xFE] := by
  decide +kernel

/-- 95 V15. -/
theorem test_initch : crAfter 1 (exec (.initch 1) State.reset) = some ⟨⟨0, 1, 2, 3, 4⟩, ⟨5, 6, 7, 8, 9⟩⟩ := by
  decide +kernel

/-- 95 V15: the same block twice. -/
theorem test_cat : crAfter 0 (exec (.cat 0 2 4) loaded) =
    some ⟨⟨0x11, 0x22, 0x33, 0x44, 0x55⟩, ⟨0xA1, 0xB2, 0xC3, 0xD4, 0xE5⟩⟩ := by
  decide +kernel

/-- 42_keyderivation R171: the last legal offset, the last bytes of DK. -/
theorem test_lddk_last_offset : brAfter 4 (exec (.lddk 4 2043) (loaded.store 0x0FFB [1, 2, 3, 4, 5])) =
    some ⟨1, 2, 3, 4, 5⟩ := by
  decide +kernel

/-- 95 V24, on five bytes of DK. -/
theorem test_xdk : bytesAfter 0x0800 5 (exec (.xdk 2) (loaded.store 0x0800 [0, 0, 0, 0, 0])) =
    some [0x55, 0x44, 0x33, 0x22, 0x11] := by
  decide +kernel

/-- 95 V24. -/
theorem test_xbk : brAfter 4 (exec (.xbk 4 2) loaded) = some ⟨0xF4, 0xF6, 0xF0, 0xF6, 0xF4⟩ := by decide +kernel

/-- 95 V24: the destination is the source. -/
theorem test_xbk_same_register : brAfter 2 (exec (.xbk 2 2) loaded) = some ⟨0x44, 0x66, 0x00, 0x66, 0x44⟩ := by
  decide +kernel

/-- 95 V33. -/
theorem test_dscr_bounds : statusAfter (exec (.dscr 3 0x55) State.reset) = some 0x0000120E ∧
    statusAfter (exec (.dscr 3 0x7FF) State.reset) = some 0x0000120E := by
  decide +kernel

/-- 95 V33, V40. -/
theorem test_descr_unencrypted : statusAfter (exec (.descr 0) State.reset) = some 0x00000002 ∧
    statusAfter (exec (.descr 0x55) State.reset) = some 0x0000000A := by
  decide +kernel

/-- 95 V40: accepted, FSM in REQ. -/
theorem test_auth_and_acq_accepted : statusAfter (exec (.auth 0) State.reset) = some 0x01000001 ∧
    statusAfter (exec .acq State.reset) = some 0x01000001 := by
  decide +kernel

/-- 95 V54: the abort of a granted session. -/
theorem test_clrctx_abort : statusAfter (exec .clrctx (inSession .sendch .coreTurn)) = some 0x00FF1306 ∧
    lastOutput (exec .clrctx (inSession .sendch .coreTurn)) = some (.invalidateSession 0x11) := by
  decide +kernel

/-- 95 V55: the abort in REQ sends nothing. -/
theorem test_clrctx_abort_in_req : lastOutput (exec .clrctx (inSession .req .coreTurn)) = none := by decide +kernel

/-- 95 V43: no channel ends AUTH with ChannelUnavailable. -/
theorem test_no_channel : statusAfter (step (inSession .req (.answer .noChannel))) = some 0x00FF0106 := by
  decide +kernel

/-- 95 V50: the drive rejects key2. -/
theorem test_auth_failure : statusAfter (step (inSession .sendk2 (.answer .authFailure))) = some 0x00FF0406 := by
  decide +kernel

/-- 95 V51: the structure read fails. -/
theorem test_structure_read_failure : statusAfter (step (inSession .fetch (.answer .error))) = some 0x00FF0506 := by
  decide +kernel

/-- 95 V57: NOP is dropped while BUSY. -/
theorem test_busy_drop : statusAfter (step (inSession .req (.hostWrite 0x1080 4 0))) = some 0x01000011 := by
  decide +kernel

/-- 95 V41: an unaligned word read is illegal. -/
theorem test_unaligned_read : statusAfter (step { State.reset with inputs := [.hostRead 0x1086 4] }) = some 0x00000020 := by
  decide +kernel

/-- 95 V41: VARIANT reads 0xFF after reset. -/
theorem test_variant_reads_ff :
    lastOutput (step { State.reset with inputs := [.hostRead 0x10E8 1] }) = some (.readData 0xFF) := by
  decide +kernel

/-- The word placed where the core fetches runs as the next step. -/
theorem test_fetch_word : statusAfter (step (State.reset.withFetchWord 32 0x40000001)) = some 0x01000001 := by
  decide +kernel

/-! ### Witnesses: for each obligation with hypotheses, a state and operands that meet them -/

/-- An accepted AUTH in a state of the FSM, with inputs waiting. -/
def running (f : FsmState) (m : SessionMode) (p : AcqPhase) (is : List Input) : State :=
  { loaded with
    status := { Status.reset with busy := true }
    ctx := { Context.reset with fsm := f, mode := m, acqPhase := p, sid := 0x11, variant := some 7 }
    inputs := is }

/-- An idle core with one input waiting. -/
def waiting (i : Input) : State := { loaded with inputs := [i] }

theorem witness_EncodedCommandsDecodeToThemselves :
    (Instr.gen 7 32).wellFormed = true ∧ (Instr.cat 1 7 0).wellFormed = true ∧ (Instr.lddk 0 2043).wellFormed = true := by
  decide

theorem witness_DecodedWordsEncodeToThemselves : decode 0x14E88000 = .ok (.bkt 2 1 7) := by decide

theorem witness_LegalWordsAreTheOpcodeMap :
    decode 0x04000020 = .ok (.gen 0 32) ∧ (⟨"GEN", 0x04000000, 0xFFFC7800, 1, 32⟩ : CommandRow) ∈ commandRows ∧
      CommandRow.fits ⟨"GEN", 0x04000000, 0xFFFC7800, 1, 32⟩ 0x04000020 := by
  refine ⟨by decide, by decide, ?_⟩
  unfold CommandRow.fits
  decide

/-- Both clauses: the reserved opcodes at their ends, and an illegal word of a used opcode. -/
theorem witness_IllegalWordsChangeOnlyStatus :
    (0x3C000000#32).toNat / 2 ^ 26 = 0x0F ∧ 0x14 ≤ (0x50000000#32).toNat / 2 ^ 26 ∧
      0x14 ≤ (0xFFFFFFFF#32).toNat / 2 ^ 26 ∧ (waiting (.hostWrite 0x1080 4 0x04000000)).status.busy = false ∧
      IllegalWord 0x04000000 := by
  refine ⟨by decide, by decide, by decide, rfl, ?_⟩
  unfold IllegalWord CommandRow.fits
  decide

theorem witness_IllFormedCommandsAreIllegal :
    (Instr.gen 0 33).wellFormed = false ∧ (Instr.auth 2).wellFormed = false ∧ loaded.status.busy = false := by decide

theorem witness_StepRunsTheDecodedCommand :
    (waiting (.hostWrite 0x1080 4 0x34110000)).inputs = [.hostWrite 0x1080 4 0x34110000] ∧
      decode 0x34110000 = .ok (.xbk 4 2) := by decide

theorem witness_BusyCoreDropsEveryOtherCommand :
    Instr.nop ≠ .clrctx ∧ (running .req .disk .inactive []).status.busy = true := by decide

theorem witness_NopOnlyCompletes : loaded.status.busy = false := by decide

theorem witness_GenWritesTheKeystream : loaded.status.busy = false ∧ 1 ≤ (1 : Imm).toNat ∧ (1 : Imm).toNat ≤ 32 ∧
    1 ≤ (32 : Imm).toNat ∧ (32 : Imm).toNat ≤ 32 := by decide

theorem witness_CipherCommandsWriteTheirDestination :
    loaded.status.busy = false ∧ (0 : CrField).toNat = (0 : Fin 2).val ∧ (1 : CrField).toNat = (1 : Fin 2).val := by
  decide

theorem witness_FindvReportsTheResolvedVariant :
    loaded.status.busy = false ∧ (1 : CrField).toNat = (1 : Fin 2).val := by decide

/-- The lowest variant resolves its own key1, whatever the configuration. -/
theorem resolveVariant_self (cfg : Config) (ch : Challenge) :
    resolveVariant cfg ch (key1Transform cfg 0 ch) = some 0 := by
  unfold resolveVariant variantsInOrder
  rw [show List.range 32 = 0 :: (List.range 31).map (· + 1) by decide, List.map_cons,
    List.find?_cons_of_pos (by simp)]
  rfl

/-- Some key1 is the key1 of no variant, whatever the configuration: 32 variants give at most 32 first bytes. -/
theorem resolveVariant_none (cfg : Config) (ch : Challenge) : ∃ k1, resolveVariant cfg ch k1 = none := by
  by_contra h
  push Not at h
  have hs : Function.Surjective fun v : Fin 32 => (key1Transform cfg (BitVec.ofFin v) ch).b0.toFin := by
    intro b
    obtain ⟨v, hv⟩ := Option.ne_none_iff_exists'.mp (h ⟨BitVec.ofFin b, 0, 0, 0, 0⟩)
    have hv := List.find?_some hv
    simp only [beq_iff_eq] at hv
    exact ⟨v.toFin, by simp [hv]⟩
  simpa using Fintype.card_le_of_surjective _ hs

/-- Both answers of FINDV occur under every configuration. -/
theorem witness_FindvReportsTheResolvedVariant_answers :
    (∃ k1, resolveVariant Config.platform initialChallenge k1 = some 0) ∧
      ∃ k1, resolveVariant Config.platform initialChallenge k1 = none :=
  ⟨⟨_, resolveVariant_self _ _⟩, resolveVariant_none _ _⟩

theorem witness_InitchWritesTheInitialChallenge :
    loaded.status.busy = false ∧ (1 : CrField).toNat = (1 : Fin 2).val := by decide

theorem witness_CatConcatenatesTwoBlocks : loaded.status.busy = false ∧ (0 : CrField).toNat = (0 : Fin 2).val := by
  decide

theorem witness_MixWritesTheMixedKey : loaded.status.busy = false := by decide

theorem witness_LddkLoadsFiveDiskKeyBytes :
    loaded.status.busy = false ∧ (0 : Imm).toNat ≤ 2043 ∧ (2043 : Imm).toNat ≤ 2043 := by decide

theorem witness_DtkWritesTheTitleKeyOrFails : loaded.status.busy = false := by decide

/-- Both clauses: the disk key of 95 V22 confirms player key 3 first, and an all-zero one confirms none. -/
theorem witness_DecryptTitleKeyTakesTheFirstConfirmed :
    (Confirms tcfg fixture 3 ∧ ∀ l : Fin 10, l < 3 → ¬ Confirms tcfg fixture l) ∧
      ∀ j : Fin 10, ¬ Confirms tcfg (fun _ => 0) j := by
  unfold Confirms
  decide +kernel

theorem witness_XdkXorsTheDiskKeyAndUndoesItself : loaded.status.busy = false := by decide

theorem witness_XbkXorsTheTitleKey : loaded.status.busy = false := by decide

theorem witness_DscrDescramblesTheSector :
    loaded.status.busy = false ∧ (0 : Imm).toNat ≤ 0x54 ∧ (0x54 : Imm).toNat ≤ 0x54 := by decide

theorem witness_DescrDescramblesOnlyWhenEncrypted :
    loaded.status.busy = false ∧ loaded.ctx.enc = false ∧
      ({ loaded with ctx := { loaded.ctx with enc := true } } : State).status.busy = false ∧ (0x54 : Imm).toNat ≤ 0x54 := by
  decide

theorem witness_OffsetsAboveTheRangeAreSectorBounds :
    ({ loaded with ctx := { loaded.ctx with enc := true } } : State).status.busy = false ∧ 0x54 < (0x55 : Imm).toNat ∧
      0x54 < (0x7FF : Imm).toNat := by decide

theorem witness_AuthStartsASession :
    loaded.status.busy = false ∧ (0 : Imm).toNat ≤ 1 ∧ (1 : Imm).toNat ≤ 1 := by decide

theorem witness_AcqStartsTheDiskKeySession : loaded.status.busy = false := by decide

theorem witness_ClrctxClearsTheContextAndAborts :
    loaded.status.busy = false ∧ (running .sendch .disk .inactive []).status.busy = true := by decide

theorem witness_RequestAnswers (i : Input) :
    (running .req .disk .inactive [i]).status.busy = true ∧ (running .req .disk .inactive [i]).ctx.fsm = .req ∧
      (running .req .disk .inactive [i]).inputs = [i] := ⟨rfl, rfl, rfl⟩

theorem witness_HandshakeAnswers (f : FsmState) (i : Input) :
    (running f .disk .inactive [i]).status.busy = true ∧ (running f .disk .inactive [i]).ctx.fsm = f ∧
      (running f .disk .inactive [i]).inputs = [i] := ⟨rfl, rfl, rfl⟩

theorem witness_ResolveVariantStep :
    (running .resv .disk .inactive [.coreTurn]).status.busy = true ∧
      (running .resv .disk .inactive [.coreTurn]).ctx.fsm = .resv ∧
      (running .resv .disk .inactive [.coreTurn]).inputs = [.coreTurn] := ⟨rfl, rfl, rfl⟩

/-- Both clauses: `i` is the drive's challenge in RECVCH and the core's turn in BUSK. -/
theorem witness_Key2AndBusKeySteps (f : FsmState) (i : Input) :
    (running f .title .titleSession [i]).status.busy = true ∧
      (running f .title .titleSession [i]).ctx.variant = some 7 ∧ (running f .title .titleSession [i]).ctx.fsm = f ∧
      (running f .title .titleSession [i]).inputs = [i] := ⟨rfl, rfl, rfl, rfl⟩

theorem witness_DiskKeyFetchStep (i : Input) :
    (running .fetch .disk .diskSession [i]).status.busy = true ∧
      (running .fetch .disk .diskSession [i]).ctx.fsm = .fetch ∧
      (running .fetch .disk .diskSession [i]).ctx.mode = .disk ∧
      (running .fetch .disk .diskSession [i]).inputs = [i] := ⟨rfl, rfl, rfl, rfl⟩

theorem witness_TitleKeyFetchStep (i : Input) :
    (running .fetch .title .inactive [i]).status.busy = true ∧ (running .fetch .title .inactive [i]).ctx.fsm = .fetch ∧
      (running .fetch .title .inactive [i]).ctx.mode = .title ∧
      (running .fetch .title .inactive [i]).inputs = [i] := ⟨rfl, rfl, rfl, rfl⟩

theorem witness_TitleKeyDecryptionStep :
    (running .dtks .title .decryption [.coreTurn]).status.busy = true ∧
      (running .dtks .title .decryption [.coreTurn]).ctx.fsm = .dtks ∧
      (running .dtks .title .decryption [.coreTurn]).inputs = [.coreTurn] := ⟨rfl, rfl, rfl⟩

theorem witness_SessionEndsByPhase (p : AcqPhase) : (running .fetch .title p []).ctx.acqPhase = p := rfl

/-- The first three clauses: each call state, in each mode, and two states that agree in the registers of R204. -/
theorem witness_PendingCallIsFixedByTheRegisters (f : FsmState) (m : SessionMode) :
    (running f m .inactive []).status.busy = true ∧ (running f m .inactive []).ctx.fsm = f ∧
      (running f m .inactive []).ctx.mode = m ∧
      (running f m .inactive [.coreTurn]).ctx = (running f m .inactive []).ctx ∧
      (running f m .inactive [.coreTurn]).lba = (running f m .inactive []).lba := ⟨rfl, rfl, rfl, rfl, rfl⟩

/-- The next three: a host read, a dropped CMD write and the abort, in a call state. -/
theorem witness_PendingCallIsFixedByTheRegisters_host :
    (∃ t, step (running .sendch .disk .inactive [.hostRead 0x1084 4]) = .next t) ∧
      (∃ t, step (running .sendch .disk .inactive [.hostWrite 0x1080 4 0]) = .next t) ∧
      (∃ t, step (running .sendch .disk .inactive [.hostWrite 0x1080 4 0x4C000000]) = .next t) ∧
      ¬ ((0x1080 : HostAddr) = 0x1080 ∧ 4 = 4 ∧ (0 : Word) = 0x4C000000) :=
  ⟨⟨_, rfl⟩, submitCommand_next 0 (running .sendch .disk .inactive []),
    submitCommand_next 0x4C000000 (running .sendch .disk .inactive []), by decide⟩

/-- The last two: a late answer, an answer of another call's type, and an answer with no call pending. -/
theorem witness_PendingCallIsFixedByTheRegisters_answers :
    (running .sendch .disk .inactive [.lateAnswer .ack]).inputs = [.lateAnswer .ack] ∧
      (∀ c, pendingCall (running .sendch .disk .inactive [.answer .ok]) = some c → ¬ AnswersCall c .ok) ∧
      ∀ c, pendingCall (running .resv .disk .inactive [.answer .ok]) = some c → ¬ AnswersCall c .ok := by
  refine ⟨rfl, fun c h => ?_, fun c h => ?_⟩ <;> cases h
  exact fun h => Answer.noConfusion h

theorem witness_TitleSessionRunsToCompletion (k1 d : Block) (c : Challenge) :
    let s := running .req .title .inactive (titleSessionInputs 0x22 k1 c d ++ [])
    (s.status.busy = true ∧ s.ctx.fsm = .req ∧ s.ctx.mode = .title ∧ s.ctx.acqPhase = .inactive ∧
        s.inputs = titleSessionInputs 0x22 k1 c d ++ []) ∧
      ∃ k, resolveVariant Config.platform initialChallenge k = some 0 :=
  ⟨⟨rfl, rfl, rfl, rfl, rfl⟩, _, resolveVariant_self _ _⟩

theorem witness_GrantFailuresExhaustTheBudget :
    let is := List.replicate (Config.platform.grantRetries.val + 1) (Input.answer .grantFail) ++ []
    let s := running .req .title .inactive is
    s.status.busy = true ∧ s.ctx.fsm = .req ∧ s.ctx.acqPhase = .inactive ∧ s.ctx.attempts = 0 ∧ s.inputs = is :=
  ⟨rfl, rfl, rfl, rfl, rfl⟩

theorem witness_NoChannelMeansUnencrypted :
    let s : State := { loaded with inputs := [.hostWrite 0x1080 4 0x44000000, .answer .noChannel] }
    s.status.busy = false ∧ s.inputs = .hostWrite 0x1080 4 0x44000000 :: .answer .noChannel :: [] := ⟨rfl, rfl⟩

/-- A byte access to CMD, a word access into a byte region, one inside a word register, an unaligned one at the top of
the address space, and a width that is neither. -/
theorem witness_IllegalAccessesOnlySetHosterr :
    ¬ LegalAccess 0x1080 1 ∧ ¬ LegalAccess 0x1020 4 ∧ ¬ LegalAccess 0x1086 4 ∧ ¬ LegalAccess 0xFFFE 4 ∧
      ¬ LegalAccess 0x0000 2 := by
  unfold LegalAccess ByteRegion WordRegisterAddress ReservedAddress
  omega

/-- The last byte of the operand slots, the first and last reserved words, and a read-only byte and word. -/
theorem witness_ReservedAndReadOnlyPlacesIgnoreWrites :
    (LegalAccess 0x107F 1 ∧ ReservedAddress 0x107F) ∧ (LegalAccess 0x108C 4 ∧ ReservedAddress 0x108C) ∧
      (LegalAccess 0xFFFC 4 ∧ ReservedAddress 0xFFFC) ∧ (LegalAccess 0x10EB 1 ∧ ReadOnlyAddress 0x10EB) ∧
      (LegalAccess 0x10EC 4 ∧ ReadOnlyAddress 0x10EC) ∧ loaded.status.busy = false := by
  unfold ReadOnlyAddress LegalAccess ByteRegion WordRegisterAddress ReservedAddress
  refine ⟨?_, ?_, ?_, ?_, ?_, rfl⟩ <;> omega

theorem witness_BusyCoreDropsHostWrites (i : Input) :
    (running .req .disk .inactive [i]).status.busy = true ∧ (running .req .disk .inactive [i]).inputs = [i] ∧
      LegalAccess 0x1080 4 ∧ LegalAccess 0x0000 1 ∧ (0 : Word) ≠ 0x4C000000 := by
  unfold LegalAccess ByteRegion WordRegisterAddress ReservedAddress
  refine ⟨rfl, rfl, ?_, ?_, by decide⟩ <;> omega

/-- The first clause: a byte and a word read of an idle core, and a read of a reserved byte. -/
theorem witness_HostWritesReadBack_reads :
    LegalAccess 0x101F 1 ∧ LegalAccess 0x1084 4 ∧ LegalAccess 0xFFFF 1 ∧
      (waiting (.hostRead 0x1084 4)).inputs = [.hostRead 0x1084 4] ∧
      (waiting (.hostRead 0x1084 4)).status.busy = false := by
  unfold LegalAccess ByteRegion WordRegisterAddress ReservedAddress
  refine ⟨?_, ?_, ?_, rfl, rfl⟩ <;> omega

/-- The third clause: the first and last buffer byte, the last operand byte, and LBA. -/
theorem witness_HostWritesReadBack (i : Input) :
    (waiting i).status.busy = false ∧ (waiting i).inputs = [i] ∧ WritablePlace 0x0000 1 ∧ WritablePlace 0x101F 1 ∧
      WritablePlace 0x1079 1 ∧ WritablePlace 0x1088 4 := by
  refine ⟨rfl, rfl, ?_⟩
  unfold WritablePlace ReservedAddress
  omega

/-- Each clause: an idle core about to write LBA, a title-key fetch, and a step by a host read. -/
theorem witness_LbaIsWrittenOnlyByTheHost (v : Word) :
    ((waiting (.hostWrite 0x1088 4 v)).status.busy = false ∧
        (waiting (.hostWrite 0x1088 4 v)).inputs = [.hostWrite 0x1088 4 v]) ∧
      ((running .fetch .title .inactive []).status.busy = true ∧ (running .fetch .title .inactive []).ctx.fsm = .fetch ∧
        (running .fetch .title .inactive []).ctx.mode = .title) ∧
      ∃ t, step (waiting (.hostRead 0x1088 4)) = .next t :=
  ⟨⟨rfl, rfl⟩, ⟨rfl, rfl, rfl⟩, _, rfl⟩

theorem witness_PlatformResetRestoresResetValues :
    (running .fetch .disk .diskSession [.reset]).inputs = [.reset] := rfl

/-- A state in the middle of an ACQ that is sound, and its step, by an answer. -/
theorem witness_EveryStepKeepsTheInvariant :
    (running .sendk2 .disk .diskSession [.answer .ok]).Sound ∧
      ∃ t, step (running .sendk2 .disk .diskSession [.answer .ok]) = .next t := by
  refine ⟨⟨empty_wf 0, ⟨fun _ => ⟨rfl, rfl, rfl, rfl⟩, none, rfl, rfl⟩, ?_⟩, _, rfl⟩
  constructor <;> simp [running, Context.reset, variantInUse, variantSought]

theorem witness_SoundStatesNeverStop : (running .sendk2 .disk .diskSession [.answer .ok]).Sound :=
  witness_EveryStepKeepsTheInvariant.1

/-- Both clauses: ENC kept by a host read, and cleared by CLRCTX. -/
theorem witness_EncryptedFlagFollowsDecryption :
    let s (i : Input) : State := { waiting i with ctx := { Context.reset with enc := true } }
    (∃ t, step (s (.hostRead 0x1084 4)) = .next t ∧ t.ctx.enc = true) ∧
      ∃ t, step (s .reset) = .next t ∧ t.ctx.enc = false :=
  ⟨⟨_, rfl, rfl⟩, _, rfl, rfl⟩

/-- Under TCFG the DTKS step does set ENC: the fixture of 95 V22 confirms a player key. -/
theorem test_decryption_sets_enc :
    ((State.decryptStep tcfg
      ((running .dtks .title .decryption []).store 0x0800 ((List.range 55).map fixture))).ctx.enc = true) := by
  decide +kernel

theorem witness_OnlySessionsAndClrctxWriteTheContext :
    (∃ t, exec .nop loaded = .next t) ∧ (∃ t, step (waiting (.hostRead 0x10E8 1)) = .next t) ∧
      ∃ t, step (waiting (.hostWrite 0x10E8 1 0)) = .next t :=
  ⟨⟨_, rfl⟩, ⟨_, rfl⟩, _, rfl⟩

/-- A step by an answer that leaves all of memory, one by the core's turn with no event left, and the disk-key data
step. -/
theorem witness_FsmStepsWriteOnlyTheContextAndDiskKey (d : Vector Byte 2048) :
    let s := running .sendch .disk .inactive [.answer .ack]
    let u := running .fetch .disk .inactive [.answer (.diskData d)]
    (s.inputs = [.answer .ack] ∧ (∃ t, step s = .next t) ∧ s.ctx.fsm ≠ .fetch) ∧
      (∃ t, step (running .busk .disk .inactive []) = .next t) ∧
      (u.status.busy = true ∧ u.ctx.fsm = .fetch ∧ u.ctx.mode = .disk ∧ u.inputs = [.answer (.diskData d)] ∧
        ∃ t, step u = .next t) :=
  ⟨⟨rfl, ⟨_, rfl⟩, by decide⟩, ⟨_, rfl⟩, rfl, rfl, rfl, rfl, _, rfl⟩

theorem witness_StickyBitsStayUntilResetOrClrctx :
    let s : State := { waiting (.hostRead 0x1084 4) with status := { Status.reset with busyWr := true, hostErr := true } }
    (∃ t, step s = .next t) ∧ (∀ rest, s.inputs ≠ .reset :: rest) ∧
      (∀ rest, s.inputs ≠ .hostWrite 0x1080 4 0x4C000000 :: rest) ∧ s.status.busyWr = true ∧ s.status.hostErr = true :=
  ⟨⟨_, rfl⟩, fun _ => by simp [waiting], fun _ => by simp [waiting], rfl, rfl⟩

/-- The third clause: the bytes at both ends of the longest output of GEN. -/
theorem witness_GeneratorBytesAreLsbFirstBackToFront : 0 < 8 ∧ 7 < 8 ∧ 0 < 32 ∧ 31 < 32 := by decide

theorem witness_MixIsABijectionWhenTab1Is : Function.Bijective ({ tcfg with tab1 := id } : Config).tab1 :=
  Function.bijective_id

end Sys2Proof.Tests
end

section
/-! What each step of the machine leaves of LBA, and the obligation on LBA (10_state R29). -/

namespace Sys2Proof.Machine

/-! ### LBA across the FSM's steps -/

@[simp] theorem endAuth_lba (s : State) (e : Option CoreError) : (s.endAuth e).lba = s.lba := by
  cases e <;> rfl

@[simp] theorem endDiskSession_lba (s : State) (e : Option CoreError) : (s.endDiskSession e).lba = s.lba := by
  rcases e with _ | e
  · rfl
  · cases e <;> rfl

@[simp] theorem endTitleSession_lba (s : State) (e : Option CoreError) : (s.endTitleSession e).lba = s.lba := by
  cases e <;> rfl

theorem sessionEnd_lba {s t : State} {e : Option CoreError} (h : s.sessionEnd e = .next t) : t.lba = s.lba := by
  rcases sessionEnd_cases s e with ⟨-, he⟩ | ⟨-, he⟩ | ⟨-, he⟩ | ⟨-, he⟩ <;> rw [he] at h <;> cases h
  · exact endAuth_lba s e
  · exact endDiskSession_lba s e
  · exact endTitleSession_lba s e

theorem grantFailed_lba {cfg : Config} {s t : State} (h : s.grantFailed cfg = .next t) : t.lba = s.lba := by
  unfold State.grantFailed at h
  dsimp only at h
  split at h
  case isTrue => exact (sessionEnd_lba h).trans rfl
  case isFalse => cases h; rfl

theorem challengeReceived_lba {cfg : Config} {s t : State} {c : Challenge}
    (h : s.challengeReceived cfg c = .next t) : t.lba = s.lba := by
  unfold State.challengeReceived at h
  split at h <;> cases h
  rfl

theorem diskKeyFetched_lba {s t : State} {d : Vector Byte 2048} (h : s.diskKeyFetched d = .next t) :
    t.lba = s.lba := by
  unfold State.diskKeyFetched at h
  exact (sessionEnd_lba h).trans (store_lba s _ _)

theorem titleKeyFetched_lba {s t : State} {d : Block} (h : s.titleKeyFetched d = .next t) : t.lba = s.lba := by
  unfold State.titleKeyFetched at h
  exact (sessionEnd_lba h).trans rfl

theorem answered_lba {cfg : Config} {a : Answer} {s t : State} (h : s.answered cfg a = .next t) :
    t.lba = s.lba := by
  cases a with
  | noChannel => exact sessionEnd_lba h
  | grantFail => exact grantFailed_lba h
  | sid v => cases h; rfl
  | ack => cases h; rfl
  | block k => cases h; rfl
  | challenge c => exact challengeReceived_lba h
  | ok => cases h; rfl
  | authFailure => exact sessionEnd_lba h
  | diskData d => exact diskKeyFetched_lba h
  | titleData d => exact titleKeyFetched_lba h
  | error => exact sessionEnd_lba h

theorem answerStep_lba {cfg : Config} {a : Answer} {s t : State} (h : answerStep cfg a s = .next t) :
    t.lba = s.lba := by
  rcases answerStep_cases cfg a s with he | ⟨c, -, -, he⟩ <;> rw [he] at h
  · cases h; rfl
  · exact (answered_lba h).trans (emit_lba s _)

theorem resolveStep_lba {cfg : Config} {s t : State} (h : s.resolveStep cfg = .next t) : t.lba = s.lba := by
  unfold State.resolveStep at h
  split at h
  · exact sessionEnd_lba h
  · cases h; rfl

theorem busKeyStep_lba {cfg : Config} {s t : State} (h : s.busKeyStep cfg = .next t) : t.lba = s.lba := by
  unfold State.busKeyStep at h
  split at h <;> cases h
  rfl

@[simp] theorem decryptStep_lba (cfg : Config) (s : State) : (s.decryptStep cfg).lba = s.lba := by
  unfold State.decryptStep
  split <;> rfl

theorem internalStep_lba {cfg : Config} {s t : State} (h : internalStep cfg s = .next t) : t.lba = s.lba := by
  rcases internalStep_cases cfg s with he | ⟨-, ⟨-, he⟩ | ⟨-, he⟩ | ⟨-, he⟩⟩ <;> rw [he] at h
  · cases h; rfl
  · exact resolveStep_lba h
  · exact busKeyStep_lba h
  · cases h; exact decryptStep_lba cfg s

/-! ### LBA across commands and host accesses -/

@[simp] theorem abort_lba (s : State) : s.abort.lba = s.lba := by
  unfold State.abort
  dsimp only
  split <;> rfl

theorem submitCommand_lba {w : Word} {s t : State} (h : submitCommand w s = .next t) : t.lba = s.lba := by
  rcases submitCommand_cases h with ⟨-, rfl⟩ | ⟨-, hp⟩ | ⟨-, md, rfl⟩ | ⟨-, -, rfl⟩ | ⟨-, rfl⟩
  · rfl
  · exact hp.lba
  · rfl
  · rfl
  · split
    · exact abort_lba s
    · rfl

@[simp] theorem hostRead_lba (s : State) (addr : HostAddr) (n : Nat) : (s.hostRead addr n).lba = s.lba := by
  unfold State.hostRead
  split <;> rfl

/-- LBA stands at 0x1088 only (10_state R33). -/
theorem eq_of_locate_lba {addr : HostAddr} (h : locate addr = .word .lba) : addr = 0x1088 := by
  have hl := located addr
  rw [h] at hl
  cases hl with
  | word _ ha => exact BitVec.eq_of_toNat_eq ha

theorem legalAccess_lba_width {n : Nat} (h : legalAccess 0x1088 n = true) : n = 4 :=
  eq_of_beq (show (n == 4) = true from h)

/-- A write to any other address leaves LBA. -/
theorem storeLocation_lba {s : State} {addr : HostAddr} (v : Word) (h : addr ≠ 0x1088) :
    (s.storeLocation addr v).lba = s.lba := by
  unfold State.storeLocation
  cases hl : locate addr with
  | word w =>
    cases w with
    | lba => exact absurd (eq_of_locate_lba hl) h
    | cmd | status | sid => rfl
  | buffer | br | cr | context | insideWord | reserved => rfl

theorem hostStore_lba {s : State} {addr : HostAddr} (v : Word) (h : addr ≠ 0x1088) :
    (s.hostStore addr v).lba = s.lba := by
  unfold State.hostStore
  split
  · rfl
  · exact storeLocation_lba v h

/-- Every host write but a 4-byte one at 0x1088 leaves LBA: at that address no other width is legal. -/
theorem hostWrite_lba {s t : State} {addr : HostAddr} {n : Nat} {v : Word} (h : hostWrite addr n v s = .next t)
    (hw : ¬ (addr = 0x1088 ∧ n = 4)) : t.lba = s.lba := by
  unfold hostWrite at h
  split at h
  case isFalse => cases h; rfl
  case isTrue hlegal =>
    split at h
    case isTrue => exact submitCommand_lba h
    case isFalse =>
      cases h
      refine hostStore_lba v fun ha => hw ⟨ha, ?_⟩
      subst ha
      exact legalAccess_lba_width hlegal

/-- A 4-byte write at 0x1088 to an idle core stores the whole word in LBA. -/
theorem hostWrite_lba_idle {s : State} (v : Word) (h : s.status.busy = false) :
    hostWrite 0x1088 4 v s = .next { s with lba := v } := by
  change Host.Outcome.next (s.hostStore 0x1088 v) = _
  rw [State.hostStore, h]
  rfl

/-! ### LBA across every step -/

/-- Every input but a reset and a 4-byte write at 0x1088 leaves LBA. -/
theorem takeInput_lba {i : Input} {s t : State} (h : takeInput i s = .next t) (hreset : i ≠ .reset)
    (hwrite : ∀ v, i ≠ .hostWrite 0x1088 4 v) : t.lba = s.lba := by
  cases i with
  | hostRead addr n => cases h; exact hostRead_lba s addr n
  | hostWrite addr n v => exact hostWrite_lba h fun ⟨ha, hn⟩ => hwrite v (by rw [ha, hn])
  | answer a => exact answerStep_lba h
  | lateAnswer a => cases h; rfl
  | coreTurn => exact internalStep_lba h
  | reset => exact absurd rfl hreset

/-- Every step but a reset and a 4-byte write at 0x1088 leaves LBA. -/
theorem step_lba {s t : State} (h : step s = .next t) (hreset : ∀ rest, s.inputs ≠ .reset :: rest)
    (hwrite : ∀ v rest, s.inputs ≠ .hostWrite 0x1088 4 v :: rest) : t.lba = s.lba := by
  rcases step_cases s with ⟨-, he⟩ | ⟨i, rest, hi, he⟩ <;> rw [he] at h
  · exact internalStep_lba h
  · exact (takeInput_lba h (fun e => hreset rest (e ▸ hi)) fun v e => hwrite v rest (e ▸ hi)).trans rfl

/-- Settles O46: the value at reset, the host's read and write at 0x1088 and the fetch's argument are each one
evaluation of the model; that nothing else writes LBA is `step_lba`. -/
theorem lbaIsWrittenOnlyByTheHost : Obligations.LbaIsWrittenOnlyByTheHost := by
  refine ⟨rfl, fun s => rfl, fun s v rest hidle hin => ?write, fun s hbusy hfsm hmode => ?fetch,
    fun s t h hreset hwrite => step_lba h hreset hwrite⟩
  case write =>
    rw [step_input hin]
    exact hostWrite_lba_idle v hidle
  case fetch => simp [pendingCall, hbusy, hfsm, hmode]

end Sys2Proof.Machine
end

section
/-! The host's legal accesses, and the obligations on reserved and read-only places and on a busy core (20_memory R62,
R64, R67). -/

namespace Sys2Proof.Machine

/-! ### What stands at a reserved or read-only address -/

/-- The byte-wide context registers stand in the second byte region (10_state R31). -/
theorem ContextByte.address_range (b : ContextByte) : 0x10A0 ≤ b.address ∧ b.address ≤ 0x10EB := by
  cases b <;> simp only [ContextByte.address] <;> omega

theorem ContextByte.address_not_reserved (b : ContextByte) : ¬ ReservedAddress b.address := by
  unfold ReservedAddress
  cases b <;> simp only [ContextByte.address] <;> omega

theorem WordRegister.address_not_reserved (w : WordRegister) : ¬ ReservedAddress w.address := by
  unfold ReservedAddress
  cases w <;> simp [WordRegister.address]

theorem WordRegister.address_not_byteRegion (w : WordRegister) : ¬ ByteRegion w.address := by
  unfold ByteRegion
  cases w <;> simp [WordRegister.address]

theorem wordRegisterAddress_address (w : WordRegister) : WordRegisterAddress w.address := by
  unfold WordRegisterAddress
  cases w <;> simp [WordRegister.address]

/-- No byte inside a word register is at a word register's address, in a byte region, or reserved (10_state R33). -/
theorem not_accessible_insideWord {a : Nat} (w : WordRegister) (h1 : w.address < a) (h2 : a < w.address + 4) :
    ¬ WordRegisterAddress a ∧ ¬ ByteRegion a ∧ ¬ ReservedAddress a := by
  unfold WordRegisterAddress ByteRegion ReservedAddress
  cases w <;> simp only [WordRegister.address] at h1 h2 <;> omega

/-- Only reserved addresses have nothing at them. -/
theorem Located.eq_reserved {a : Nat} {l : Location} (hl : Located a l) (h : ReservedAddress a) : l = .reserved := by
  cases hl with
  | reserved => rfl
  | context b hb => exact absurd (hb ▸ h) b.address_not_reserved
  | word w hw => exact absurd (hw ▸ h) w.address_not_reserved
  | insideWord w h1 h2 =>
    obtain ⟨-, -, hres⟩ := not_accessible_insideWord w h1 h2
    exact absurd h hres
  | buffer | br | cr => unfold ReservedAddress at h; omega

theorem locate_of_reservedAddress {addr : HostAddr} (h : ReservedAddress addr.toNat) : locate addr = .reserved :=
  (located addr).eq_reserved h

/-- A read-only address holds STATUS, SID or a byte-wide context register (10_state R28, R31). -/
theorem Located.of_readOnly {a : Nat} {l : Location} (hl : Located a l) (h : ReadOnlyAddress a) :
    l = .word .status ∨ l = .word .sid ∨ ∃ b, l = .context b := by
  unfold ReadOnlyAddress at h
  cases hl with
  | context b => exact .inr (.inr ⟨b, rfl⟩)
  | word w hw =>
    cases w with
    | status => exact .inl rfl
    | sid => exact .inr (.inl rfl)
    | cmd | lba => simp only [WordRegister.address] at hw; omega
  | insideWord w h1 h2 => cases w <;> simp only [WordRegister.address] at h1 h2 <;> omega
  | reserved hr => unfold ReservedAddress at *; omega
  | buffer | br | cr => omega

/-- A write to a reserved or read-only place stores nothing (20_memory R64). -/
theorem storeLocation_of_reserved_or_readOnly (s : State) {addr : HostAddr} (v : Word)
    (h : ReservedAddress addr.toNat ∨ ReadOnlyAddress addr.toNat) : s.storeLocation addr v = s := by
  unfold State.storeLocation
  rcases h with h | h
  · rw [locate_of_reservedAddress h]
  · rcases (located addr).of_readOnly h with hl | hl | ⟨b, hl⟩ <;> rw [hl]

/-- CMD is neither reserved nor read-only. -/
theorem ne_cmdAddr_of_reserved_or_readOnly {addr : HostAddr}
    (h : ReservedAddress addr.toNat ∨ ReadOnlyAddress addr.toNat) : addr ≠ cmdAddr := by
  rintro rfl
  simp [ReservedAddress, ReadOnlyAddress, cmdAddr] at h

/-! ### Legal accesses -/

/-- The accesses the core takes as legal are those of 20_memory R62: at each kind of place, the widths that R62 allows
there. -/
theorem legalAccess_iff (addr : HostAddr) (n : Nat) : legalAccess addr n = true ↔ LegalAccess addr.toNat n := by
  have hl := located addr
  unfold legalAccess LegalAccess
  generalize locate addr = l at hl
  cases hl with
  | buffer | br | cr => simp only [beq_iff_eq, ByteRegion, WordRegisterAddress, ReservedAddress]; omega
  | context b hb =>
    have hrange := b.address_range
    simp only [hb, beq_iff_eq, b.address_not_reserved, ByteRegion, WordRegisterAddress, false_and, or_false]
    omega
  | word w hw =>
    simp [hw, w.address_not_byteRegion, w.address_not_reserved, wordRegisterAddress_address]
  | insideWord w h1 h2 =>
    obtain ⟨hword, hbyte, hres⟩ := not_accessible_insideWord w h1 h2
    simp [hword, hbyte, hres]
  | reserved h =>
    have hword : ¬ WordRegisterAddress addr.toNat := by
      unfold ReservedAddress at h
      unfold WordRegisterAddress
      omega
    simp only [Bool.or_eq_true, Bool.and_eq_true, beq_iff_eq, h, hword, and_false, false_or, true_and]
    omega

/-- A legal read sends out the value at its address, busy core or idle (20_memory R63, R66). -/
theorem hostRead_legal (s : State) {addr : HostAddr} {n : Nat} (h : LegalAccess addr.toNat n) :
    s.hostRead addr n = s.emit (.readData (readLocation s addr)) := by
  rw [State.hostRead, if_pos ((legalAccess_iff addr n).2 h)]

/-- A step by a legal read (20_memory R63). -/
theorem step_hostRead_legal {s : State} {addr : HostAddr} {n : Nat} {rest : List Input}
    (h : LegalAccess addr.toNat n) (hin : s.inputs = .hostRead addr n :: rest) :
    step s = .next { s with inputs := rest, outputs := s.outputs ++ [.readData (readLocation s addr)] } := by
  rw [step_input hin]
  exact congrArg Host.Outcome.next (hostRead_legal { s with inputs := rest } h)

/-- A legal write submits a command at CMD and stores at every other address (20_memory R63). -/
theorem hostWrite_legal (s : State) {addr : HostAddr} {n : Nat} (v : Word) (h : LegalAccess addr.toNat n) :
    hostWrite addr n v s = if addr = cmdAddr then submitCommand v s else .next (s.hostStore addr v) := by
  rw [hostWrite, if_pos ((legalAccess_iff addr n).2 h)]

theorem hostStore_idle {s : State} (h : s.status.busy = false) (addr : HostAddr) (v : Word) :
    s.hostStore addr v = s.storeLocation addr v := by
  simp [State.hostStore, h]

theorem hostStore_busy {s : State} (h : s.status.busy = true) (addr : HostAddr) (v : Word) :
    s.hostStore addr v = s.dropBusy := by
  simp [State.hostStore, h]

/-- A legal write to a reserved or read-only place leaves an idle core as it is (20_memory R64). -/
theorem hostWrite_reserved_or_readOnly {s : State} {addr : HostAddr} {n : Nat} {v : Word}
    (h : LegalAccess addr.toNat n) (hidle : s.status.busy = false)
    (hplace : ReservedAddress addr.toNat ∨ ReadOnlyAddress addr.toNat) : hostWrite addr n v s = .next s := by
  rw [hostWrite_legal s v h, if_neg (ne_cmdAddr_of_reserved_or_readOnly hplace), hostStore_idle hidle,
    storeLocation_of_reserved_or_readOnly s v hplace]

/-! ### Commands on a busy core -/

/-- An accepted word has its must-be-zero fields zero, and stands for its row's command. -/
theorem checked_ok {zeros challenge immediate : Bool} {i j : Instr}
    (h : checked zeros challenge immediate i = .ok j) : zeros = true ∧ i = j := by
  cases zeros with
  | false => cases h
  | true =>
    unfold checked at h
    split_ifs at h
    cases h
    exact ⟨rfl, rfl⟩

/-- CLRCTX is one word's command only: its row leaves no field free (30_encoding R97). -/
theorem fields_of_decodeFields_clrctx {f : Fields} (h : decodeFields f = .ok .clrctx) : f = .ofOp 0x13 := by
  unfold decodeFields at h
  split at h
  case h_19 hop =>
    obtain ⟨hz, -⟩ := checked_ok h
    have hop : f.op = 0x13 := BitVec.eq_of_toNat_eq hop
    simp only [Bool.and_eq_true, beq_iff_eq] at hz
    obtain ⟨⟨⟨⟨⟨hvar, hrd⟩, hrs⟩, hrt⟩, hinv⟩, himm⟩ := hz
    cases f
    simp_all [Fields.ofOp]
  case h_20 => cases h
  all_goals cases (checked_ok h).2

theorem word_of_decode_clrctx {w : Word} (h : decode w = .ok .clrctx) : w = 0x4C000000 := by
  rw [← Laws.wordOf_fieldsOf w, fields_of_decodeFields_clrctx h]
  rfl

/-- While BUSY every word but CLRCTX's, illegal words among them, is dropped (20_memory R67, 30_encoding R101). -/
theorem submitCommand_busy {s : State} {w : Word} (hbusy : s.status.busy = true) (hw : w ≠ 0x4C000000) :
    submitCommand w s = .next s.dropBusy := by
  obtain ⟨t, ht⟩ := submitCommand_next w s
  rcases submitCommand_cases ht with ⟨-, rfl⟩ | ⟨hidle, -⟩ | ⟨hidle, -⟩ | ⟨hidle, -⟩ | ⟨hclr, -⟩
  · exact ht
  · simp [hbusy] at hidle
  · simp [hbusy] at hidle
  · simp [hbusy] at hidle
  · exact absurd (word_of_decode_clrctx hclr) hw

/-- While BUSY a legal write, but CLRCTX to CMD, is dropped (20_memory R67). -/
theorem hostWrite_busy {s : State} {addr : HostAddr} {n : Nat} {v : Word} (h : LegalAccess addr.toNat n)
    (hbusy : s.status.busy = true) (hclr : addr = cmdAddr → v ≠ 0x4C000000) :
    hostWrite addr n v s = .next s.dropBusy := by
  rw [hostWrite_legal s v h]
  split
  case isTrue hcmd => exact submitCommand_busy hbusy (hclr hcmd)
  case isFalse => rw [hostStore_busy hbusy]

/-! ### The obligations -/

/-- Settles O42: a reserved address locates no register, so it reads 0, and a write there or to a read-only place
is one that `storeLocation` ignores. -/
theorem reservedAndReadOnlyPlacesIgnoreWrites : Obligations.ReservedAndReadOnlyPlacesIgnoreWrites := by
  intro s a n v rest hlegal
  refine ⟨fun hres hin => ?read, fun hidle hplace hin => ?write⟩
  case read =>
    have hzero : readLocation s a = 0 := by rw [readLocation, locate_of_reservedAddress hres]
    rw [step_hostRead_legal hlegal hin, hzero]
  case write =>
    rw [step_input hin]
    exact hostWrite_reserved_or_readOnly (s := { s with inputs := rest }) hlegal hidle hplace

/-- Settles O43: `hostWrite_busy` drops every write and command but CLRCTX, and a legal read does not look at BUSY. -/
theorem busyCoreDropsHostWrites : Obligations.BusyCoreDropsHostWrites := by
  intro s a n v rest hbusy hlegal
  refine ⟨fun hin hclr => ?write, fun hin => step_hostRead_legal hlegal hin⟩
  rw [step_input hin]
  exact hostWrite_busy (s := { s with inputs := rest }) hlegal hbusy hclr

end Sys2Proof.Machine
end

section
/-! The decoder against the match and mask rows of the opcode map, and the obligation on illegal words (30_encoding R97,
R98). -/

namespace Sys2Proof.Machine

/-! ### Match and mask, field by field -/

/-- The fields of a masked word. -/
def maskedFields (f m : Fields) : Fields :=
  ⟨f.op &&& m.op, f.var &&& m.var, f.rd &&& m.rd, f.rs &&& m.rs, f.rt &&& m.rt, f.inv &&& m.inv, f.imm &&& m.imm⟩

theorem fieldsOf_and (w m : Word) : fieldsOf (w &&& m) = maskedFields (fieldsOf w) (fieldsOf m) := by
  simp [fieldsOf, maskedFields, BitVec.extractLsb'_and]

theorem fieldsOf_inj {v w : Word} : fieldsOf v = fieldsOf w ↔ v = w :=
  ⟨fun h => by rw [← Laws.wordOf_fieldsOf v, h, Laws.wordOf_fieldsOf], congrArg fieldsOf⟩

theorem fieldsOf_op_toNat (w : Word) : (fieldsOf w).op.toNat = w.toNat / 2 ^ 26 := by
  simp only [fieldsOf, BitVec.extractLsb'_toNat, Nat.shiftRight_eq_div_pow]
  omega

theorem fieldsOf_imm_toNat (w : Word) : (fieldsOf w).imm.toNat = w.toNat % 2048 := by
  simp [fieldsOf, BitVec.extractLsb'_toNat]

/-- `CommandRow.fits` of the fields of a word (30_encoding R92, R97); `CommandRow.fits_iff` ties the two. -/
def CommandRow.FitsFields (r : CommandRow) (f : Fields) : Prop :=
  maskedFields f (fieldsOf r.mask) = fieldsOf r.matchWord ∧ r.immMin ≤ f.imm.toNat ∧ f.imm.toNat ≤ r.immMax

theorem CommandRow.fits_iff (r : CommandRow) (w : Word) : r.fits w ↔ r.FitsFields (fieldsOf w) := by
  rw [CommandRow.fits, CommandRow.FitsFields, ← fieldsOf_inj, fieldsOf_and, fieldsOf_imm_toNat]

/-! ### A word that decodes fits a row -/

/-- What a decoder line accepts, and as which command. -/
theorem checked_eq_ok_iff {zeros challenge immediate : Bool} {i j : Instr} :
    checked zeros challenge immediate i = .ok j ↔
      zeros = true ∧ challenge = true ∧ immediate = true ∧ i = j := by
  unfold checked
  split_ifs <;> simp_all

/-- MIX keeps its INV bit as a flag. -/
theorem ofBool_beq_one (b : BitVec 1) : BitVec.ofBool (b == 1#1) = b := by
  revert b; decide

/-- Fields that decode are those of the well-formed command they decode to: each line of the decoder checks to be zero
just the fields its command does not hold. -/
theorem encodeFields_of_decodeFields {f : Fields} {i : Instr} (h : decodeFields f = .ok i) :
    i.wellFormed = true ∧ encodeFields i = f := by
  obtain ⟨op, var, rd, rs, rt, inv, imm⟩ := f
  unfold decodeFields at h
  generalize hn : op.toNat = n at h
  have hop : op = BitVec.ofNat 6 n := by simp [← hn]
  dsimp only at h
  split at h
  case h_20 => cases h
  all_goals
    obtain ⟨hzeros, hchallenge, himmediate, rfl⟩ := checked_eq_ok_iff.1 h
    simp only [Bool.and_eq_true, beq_iff_eq] at hzeros
    simp [Instr.wellFormed, encodeFields, Fields.ofOp, ofBool_beq_one, *]

/-- The masks leave the lowest bit of a challenge index free (30_encoding R93). -/
theorem challengeIndex_masked {c : CrField} (h : CrField.ok c = true) : c &&& 6#3 = 0#3 := by
  revert c; decide

/-- AUTH's mask leaves the lowest bit of the mode free (30_encoding R94). -/
theorem mode_masked {mode : Imm} (h : mode.toNat ≤ 1) : mode &&& 2046#11 = 0#11 := by
  have hmode : mode = 0 ∨ mode = 1 := by bv_omega
  rcases hmode with rfl | rfl <;> decide

/-- A well-formed command's fields fit the row of its mnemonic: all that the row asks of an operand is its range. -/
theorem exists_row_of_wellFormed {i : Instr} (h : i.wellFormed = true) :
    ∃ r ∈ commandRows, r.mnemonic = mnemonicOf i ∧ r.FitsFields (encodeFields i) := by
  -- The mnemonic selects the row; then its match and mask are evaluated.
  cases i <;> simp [commandRows, mnemonicOf] <;>
    simp [CommandRow.FitsFields, maskedFields, encodeFields, fieldsOf, Fields.ofOp]
  case bc | k1t | k2t | bkt | findv | initch | cat => exact challengeIndex_masked h
  case gen rs len => simpa [Instr.wellFormed, Imm.isLength] using h
  case lddk rd off => simpa [Instr.wellFormed, Imm.isDiskKeyOffset] using h
  case auth mode =>
    have hmode : mode.toNat ≤ 1 := by simpa [Instr.wellFormed, Imm.isMode] using h
    exact ⟨mode_masked hmode, hmode⟩
  case dscr rs offset | descr offset => omega

/-- A word that decodes is the command of a row (30_encoding R97). -/
theorem exists_row_of_decode {w : Word} {i : Instr} (h : decode w = .ok i) :
    ∃ r ∈ commandRows, r.mnemonic = mnemonicOf i ∧ r.fits w := by
  obtain ⟨hwf, hfields⟩ := encodeFields_of_decodeFields h
  simpa only [CommandRow.fits_iff, hfields] using exists_row_of_wellFormed hwf

/-- The decoder rejects every illegal word (30_encoding R98). -/
theorem decode_of_illegalWord {w : Word} (h : IllegalWord w) : ∃ e, decode w = .error e := by
  cases hd : decode w with
  | error e => exact ⟨e, rfl⟩
  | ok i =>
    obtain ⟨r, hr, -, hfits⟩ := exists_row_of_decode hd
    exact absurd hfits (h r hr)

/-! ### Reserved opcodes -/

/-- OP is 0x0F or 0x14..0x3F (30_encoding R97, R98). -/
def ReservedOpcode (op : Nat) : Prop := op = 0x0F ∨ 0x14 ≤ op

/-- Every row masks OP in full. -/
theorem commandRows_mask_op : ∀ r ∈ commandRows, (fieldsOf r.mask).op = BitVec.allOnes 6 := by decide

theorem commandRows_op_not_reserved : ∀ r ∈ commandRows, ¬ ReservedOpcode (fieldsOf r.matchWord).op.toNat := by
  unfold ReservedOpcode
  decide

/-- A word of a row has the row's opcode. -/
theorem op_eq_of_fits {r : CommandRow} {w : Word} (hr : r ∈ commandRows) (h : r.fits w) :
    (fieldsOf w).op = (fieldsOf r.matchWord).op := by
  obtain ⟨hmatch, -⟩ := (r.fits_iff w).1 h
  rw [← hmatch, maskedFields, commandRows_mask_op r hr, BitVec.and_allOnes]

theorem illegalWord_of_reservedOpcode {w : Word} (h : ReservedOpcode (w.toNat / 2 ^ 26)) : IllegalWord w := by
  intro r hr hfits
  rw [← fieldsOf_op_toNat, op_eq_of_fits hr hfits] at h
  exact commandRows_op_not_reserved r hr h

/-! ### The obligation -/

/-- CMD is written as a word (10_state R27, 20_memory R62). -/
theorem legalAccess_cmd : LegalAccess cmdAddr.toNat 4 := .inr (.inl ⟨rfl, .inl rfl⟩)

theorem submitCommand_illegal {s : State} {w : Word} (hidle : s.status.busy = false) (h : IllegalWord w) :
    submitCommand w s = .next s.accept.illegal := by
  obtain ⟨e, he⟩ := decode_of_illegalWord h
  rw [submitCommand, he]
  exact congrArg Host.Outcome.next (submit_idle hidle State.illegal)

/-- An accepted command that is illegal reports so, and was not busy before or after (30_encoding R98, R107). -/
theorem accept_illegal {s : State} (hidle : s.status.busy = false) :
    s.accept.illegal =
      { s with
        status := { s.status with done := true, err := true, errCode := 0x10, result := 0x00, anom := false } } := by
  dsimp only
  rw [hidle]
  rfl

/-- Settles O5: no row has a reserved opcode, and a word of no row does not decode, so that its submission is
`State.illegal` on the accepted state. -/
theorem illegalWordsChangeOnlyStatus : Obligations.IllegalWordsChangeOnlyStatus := by
  refine ⟨fun w => illegalWord_of_reservedOpcode, fun s w rest hin hidle hillegal => ?_⟩
  rw [step_input hin]
  calc hostWrite cmdAddr 4 w { s with inputs := rest }
      = submitCommand w { s with inputs := rest } := by rw [hostWrite_legal _ w legalAccess_cmd, if_pos rfl]
    _ = .next (State.accept { s with inputs := rest }).illegal := submitCommand_illegal hidle hillegal
    _ = _ := congrArg Host.Outcome.next (accept_illegal (s := { s with inputs := rest }) hidle)

end Sys2Proof.Machine
end

section
/-! The bits of a generated byte, the bytes of a generated list, and the obligation on the generator's output order
(40_bitstream R126, R127). -/

namespace Sys2Proof.Machine

/-! ### The generator's iterations, from the front -/

theorem generatorAfterBits_stepBit (g : Generator) (k : Nat) :
    generatorAfterBits (stepBit g).2 k = generatorAfterBits g (k + 1) := by
  induction k with
  | zero => rfl
  | succ k ih => rw [generatorAfterBits, ih, ← generatorAfterBits]

theorem generatorAfterBytes_nextByte (g : Generator) (k : Nat) :
    generatorAfterBytes (nextByte g).2 k = generatorAfterBytes g (k + 1) := by
  induction k with
  | zero => rfl
  | succ k ih => rw [generatorAfterBytes, ih, ← generatorAfterBytes]

/-! ### The bits of a byte -/

/-- The registers, the carry among them, go on from bit to bit (40_bitstream R125). -/
theorem assembleBits_snd (count bit : Nat) (val : Byte) (g : Generator) :
    (assembleBits count bit val g).2 = generatorAfterBits g count := by
  induction count generalizing bit val g with
  | zero => rfl
  | succ count ih => rw [assembleBits, ih, generatorAfterBits_stepBit]

/-- One output bit, placed at bit position `bit` of a byte. -/
theorem getLsbD_placedBit (b : Bool) (bit : Nat) {i : Nat} (hi : i < 8) :
    ((BitVec.ofBool b).setWidth 8 <<< bit).getLsbD i = (decide (i = bit) && b) := by
  rcases Nat.lt_trichotomy i bit with hlt | rfl | hgt
  · simp [hlt, hlt.ne]
  · simp [hi]
  · have hpos : i - bit ≠ 0 := by omega
    simp [hi, hgt.ne', hpos, BitVec.getLsbD_ofBool]

/-- The `j`-th output bit goes to bit position `bit + j`; no position is written twice (40_bitstream R126). -/
theorem assembleBits_getLsbD (count bit : Nat) (val : Byte) (g : Generator) {i : Nat} (hi : i < 8) :
    (assembleBits count bit val g).1.getLsbD i =
      (val.getLsbD i ||
        (decide (bit ≤ i ∧ i < bit + count) && (stepBit (generatorAfterBits g (i - bit))).1)) := by
  induction count generalizing bit val g with
  | zero => simp [assembleBits]
  | succ count ih =>
    rw [assembleBits, ih, BitVec.getLsbD_or, getLsbD_placedBit _ _ hi, generatorAfterBits_stepBit, Bool.or_assoc]
    congr 1
    rcases Nat.lt_trichotomy i bit with hlt | rfl | hgt
    · simp [hlt.ne, hlt.not_ge, (Nat.lt_succ_of_lt hlt).not_ge]
    · simp [generatorAfterBits]
    · have hsub : i - (bit + 1) + 1 = i - bit := by omega
      have hrange : (bit + 1 ≤ i ∧ i < bit + 1 + count) ↔ (bit ≤ i ∧ i < bit + (count + 1)) := by omega
      simp only [hgt.ne', hsub, hrange, decide_false, Bool.false_and, Bool.false_or]

theorem nextByte_snd (g : Generator) : (nextByte g).2 = generatorAfterBits g 8 := assembleBits_snd 8 0 0 g

theorem nextByte_getLsbD (g : Generator) {i : Nat} (hi : i < 8) :
    (nextByte g).1.getLsbD i = (stepBit (generatorAfterBits g i)).1 := by
  rw [nextByte, assembleBits_getLsbD 8 0 0 g hi]
  simp [hi]

/-! ### The bytes of a list -/

/-- The bytes in the order of their production, reversed, stand before those that were there (40_bitstream R126). -/
theorem generateOnto_eq (n : Nat) (g : Generator) (out : List Byte) :
    generateOnto n g out =
      ((List.range n).map fun j => (nextByte (generatorAfterBytes g j)).1).reverse ++ out := by
  induction n generalizing g out with
  | zero => rfl
  | succ n ih =>
    rw [generateOnto, ih, List.range_succ_eq_map]
    simp [generatorAfterBytes_nextByte, generatorAfterBytes, Function.comp_def]

theorem generate_eq (s : Block) (n : Nat) :
    generate s n =
      ((List.range n).map fun j => (nextByte (generatorAfterBytes (seedGenerator s) j)).1).reverse := by
  rw [generate, generateOnto_eq, List.append_nil]

/-- The byte produced after `j` others stands `j` places below the highest index (40_bitstream R126). -/
theorem generate_getD (s : Block) {n k : Nat} (hk : k < n) :
    (generate s n).getD k 0 = (nextByte (generatorAfterBytes (seedGenerator s) (n - 1 - k))).1 := by
  simp [generate_eq, hk]

/-! ### The obligation -/

/-- Settles O56: `assembleBits` puts the `i`-th bit at position `i`, and `generateOnto` puts each byte before the ones
produced earlier. -/
theorem generatorBytesAreLsbFirstBackToFront : Obligations.GeneratorBytesAreLsbFirstBackToFront :=
  ⟨fun g _ hi => nextByte_getLsbD g hi, nextByte_snd, fun s _ _ hk => generate_getD s hk⟩

end Sys2Proof.Machine
end

section
/-! The search for the confirmed player key, and the obligation on the title-key decryption (42_keyderivation R172). -/

namespace Sys2Proof.Machine

/-- The model's check of player key `j` is the confirmation of the spec (42_keyderivation R172). -/
theorem verifies_preTitleKey_iff (cfg : Config) (dk : Nat → Byte) (j : Fin 10) :
    verifies cfg dk (preTitleKey cfg dk (cfg.playerKeys j)) = true ↔ Confirms cfg dk j := beq_iff_eq

theorem confirmedKey_eq_some_iff {cfg : Config} {dk : Nat → Byte} {j : Fin 10} :
    confirmedKey cfg dk = some j ↔ Confirms cfg dk j ∧ ∀ l < j, ¬ Confirms cfg dk l := by
  simp only [confirmedKey, ← Fin.find?_eq_find?_finRange, Fin.find?_eq_some_iff, ← Bool.not_eq_true,
    verifies_preTitleKey_iff]

theorem confirmedKey_eq_none_iff {cfg : Config} {dk : Nat → Byte} :
    confirmedKey cfg dk = none ↔ ∀ j, ¬ Confirms cfg dk j := by
  simp only [confirmedKey, ← Fin.find?_eq_find?_finRange, Fin.find?_eq_none_iff, ← Bool.not_eq_true,
    verifies_preTitleKey_iff]

theorem decryptTitleKey_of_confirmedKey {cfg : Config} {dk : Nat → Byte} {j : Fin 10} (etk : Block)
    (h : confirmedKey cfg dk = some j) :
    decryptTitleKey cfg dk etk = some (mix cfg etk (preTitleKey cfg dk (cfg.playerKeys j)) true, j) := by
  rw [decryptTitleKey, h, Option.map_some]

theorem decryptTitleKey_eq_none_iff {cfg : Config} {dk : Nat → Byte} {etk : Block} :
    decryptTitleKey cfg dk etk = none ↔ ∀ j, ¬ Confirms cfg dk j := by
  rw [decryptTitleKey, Option.map_eq_none_iff, confirmedKey_eq_none_iff]

/-- Settles O19: the search through the table stops at the least confirmed index, and the title key is mixed under that
entry's pre-title-key. -/
theorem decryptTitleKeyTakesTheFirstConfirmed : Obligations.DecryptTitleKeyTakesTheFirstConfirmed := by
  intro cfg dk etk
  constructor
  · intro j hconf hleast
    exact decryptTitleKey_of_confirmedKey etk (confirmedKey_eq_some_iff.2 ⟨hconf, hleast⟩)
  · exact decryptTitleKey_eq_none_iff.2

end Sys2Proof.Machine
end

section
/-! The descrambler's completions beside the sector, and the obligation on offsets above 0x54 (43_descrambler
R190-R192). -/

namespace Sys2Proof.Machine

/-! ### What a completion that marks ANOM leaves and reports -/

/-- ANOM is set exactly for the offsets above 0x54 (30_encoding R107). -/
theorem offsetAnomaly_iff (offset : Imm) : offsetAnomaly offset = true ↔ 0x54 < offset.toNat := by
  simp [offsetAnomaly]

/-- A command that only completes writes STATUS and nothing else (30_encoding R107). -/
theorem complete_markAnomaly_changesOnlyStatus (s : State) (e : Option CoreError) (r : Byte) (offset : Imm) :
    ChangesOnlyStatus s ((s.accept.complete e r).markAnomaly offset) :=
  ⟨rfl, rfl, fun _ => rfl, rfl, rfl, rfl, rfl, rfl⟩

/-- The completion's error, code and result stand in STATUS beside the offset's ANOM (30_encoding R107). -/
theorem complete_markAnomaly_reports (s : State) (e : Option CoreError) (r : Byte) (offset : Imm) :
    Reports s ((s.accept.complete e r).markAnomaly offset) e.isSome (outcomeCode e) r (offsetAnomaly offset) := rfl

/-- Raising SectorBounds at an offset above 0x54 changes STATUS only, and reports code 0x12 with ANOM set
(43_descrambler R190). -/
theorem raise_sectorBounds (s : State) (r : Byte) {offset : Imm} (h : 0x54 < offset.toNat) :
    ChangesOnlyStatus s ((s.accept.raise .sectorBounds r).markAnomaly offset) ∧
      Reports s ((s.accept.raise .sectorBounds r).markAnomaly offset) true 0x12 r true := by
  refine ⟨complete_markAnomaly_changesOnlyStatus s (some .sectorBounds) r offset, ?_⟩
  have hreports := complete_markAnomaly_reports s (some .sectorBounds) r offset
  rw [(offsetAnomaly_iff offset).2 h] at hreports
  exact hreports

/-! ### The commands at an offset above 0x54 -/

/-- An idle core's DSCR raises SectorBounds with RESULT 0x00 (43_descrambler R190, R191). -/
theorem exec_dscr_above {s : State} (rs : BrIndex) {offset : Imm} (hidle : s.status.busy = false)
    (h : 0x54 < offset.toNat) :
    exec (.dscr rs offset) s = .next ((s.accept.raise .sectorBounds 0x00).markAnomaly offset) := by
  change execDscr rs offset s = _
  rw [execDscr, submit_idle hidle, if_pos ((offsetAnomaly_iff offset).2 h)]

/-- An idle core's DESCR with ENC 1 raises SectorBounds with RESULT 0xFF (43_descrambler R190, R192). -/
theorem exec_descr_above {s : State} {offset : Imm} (hidle : s.status.busy = false) (henc : s.ctx.enc = true)
    (h : 0x54 < offset.toNat) :
    exec (.descr offset) s = .next ((s.accept.raise .sectorBounds 0xFF).markAnomaly offset) := by
  have hkeyed : ¬ (!s.accept.ctx.enc) = true := by simp [henc]
  change execDescr offset s = _
  rw [execDescr, submit_idle hidle, if_neg hkeyed, if_pos ((offsetAnomaly_iff offset).2 h)]

/-! ### The obligation -/

/-- Settles O24: both commands take their SectorBounds branch before they touch the sector, and differ there only in the
failure result. -/
theorem offsetsAboveTheRangeAreSectorBounds : Obligations.OffsetsAboveTheRangeAreSectorBounds := by
  intro s rs offset hidle habove
  constructor
  case left => exact ⟨_, exec_dscr_above rs hidle habove, raise_sectorBounds s 0x00 habove⟩
  case right =>
    intro henc
    exact ⟨_, exec_descr_above hidle henc habove, raise_sectorBounds s 0xFF habove⟩

end Sys2Proof.Machine
end

section
/-! How a session ends in each phase of ACQ, and the obligation on `SessionEnd` (44_authentication R216, 60_exceptions
R241). -/

namespace Sys2Proof.Machine

/-! ### `SessionEnd` in each phase -/

theorem sessionEnd_inactive {s : State} (h : s.ctx.acqPhase = .inactive) (e : Option CoreError) :
    s.sessionEnd e = .next (s.endAuth e) := by rw [State.sessionEnd, h]

theorem sessionEnd_diskSession {s : State} (h : s.ctx.acqPhase = .diskSession) (e : Option CoreError) :
    s.sessionEnd e = .next (s.endDiskSession e) := by rw [State.sessionEnd, h]

theorem sessionEnd_titleSession {s : State} (h : s.ctx.acqPhase = .titleSession) (e : Option CoreError) :
    s.sessionEnd e = .next (s.endTitleSession e) := by rw [State.sessionEnd, h]

/-! ### The ends that complete the command -/

/-- With ACQPH already 0, an AUTH completes just as an ACQ ends. -/
theorem completeSession_eq_acqEnd {s : State} (h : s.ctx.acqPhase = .inactive) (e : Option CoreError) (r : Byte) :
    s.completeSession e r = s.acqEnd e r := by
  rw [State.acqEnd, ← h]

/-- In the disk-key session every error but a missing channel ends the ACQ (44_authentication R216). -/
theorem endDiskSession_error (s : State) {e : CoreError} (h : e ≠ .channelUnavailable) :
    s.endDiskSession (some e) = s.acqEnd (some e) 0xFF := by
  cases e with
  | channelUnavailable => exact absurd rfl h
  | _ => rfl

/-! ### The obligation -/

/-- Settles O35: the phase selects the rule, and each end that completes the command is `acqEnd` with its outcome and
RESULT. -/
theorem sessionEndsByPhase : Obligations.SessionEndsByPhase := by
  refine ⟨rfl, fun s => ⟨fun hphase => ?auth, fun hphase => ?disk, fun hphase => ?title⟩⟩
  case auth =>
    simp only [sessionEnd_inactive hphase, State.endAuth, completeSession_eq_acqEnd hphase]
    exact ⟨rfl, fun e => rfl⟩
  case disk =>
    simp only [sessionEnd_diskSession hphase]
    exact ⟨rfl, fun e he => congrArg Host.Outcome.next (endDiskSession_error s he), rfl⟩
  case title =>
    simp only [sessionEnd_titleSession hphase]
    exact ⟨fun e => rfl, rfl⟩

end Sys2Proof.Machine
end

section
/-! The step by an answer of the pending call and by the core's own turn, and the obligations on the handshake's
answers, the title-key fetch and the title-key decryption (44_authentication R202, R207, R208, R211, R215, R217). -/

namespace Sys2Proof.Machine

/-! ### The call pending in a call state (44_authentication R201) -/

theorem pendingCall_sendch {s : State} (hbusy : s.status.busy = true) (hfsm : s.ctx.fsm = .sendch) :
    pendingCall s = some (.sendChallenge s.ctx.sid s.ctx.chal) := by simp [pendingCall, hbusy, hfsm]

theorem pendingCall_recvk1 {s : State} (hbusy : s.status.busy = true) (hfsm : s.ctx.fsm = .recvk1) :
    pendingCall s = some (.receiveKey1 s.ctx.sid) := by simp [pendingCall, hbusy, hfsm]

theorem pendingCall_sendk2 {s : State} (hbusy : s.status.busy = true) (hfsm : s.ctx.fsm = .sendk2) :
    pendingCall s = some (.sendKey2 s.ctx.sid s.ctx.key2) := by simp [pendingCall, hbusy, hfsm]

theorem pendingCall_fetch_title {s : State} (hbusy : s.status.busy = true) (hfsm : s.ctx.fsm = .fetch)
    (hmode : s.ctx.mode = .title) : pendingCall s = some (.readTitleKeyStructure s.ctx.sid s.lba) := by
  simp [pendingCall, hbusy, hfsm, hmode]

/-! ### One step by an answer, and by the core's own turn -/

/-- An answer of the pending call's type is received in the step that issues the call (44_authentication R202). -/
theorem step_answer {s : State} {a : Answer} {rest : List Input} {c : Call} (hin : s.inputs = .answer a :: rest)
    (hcall : pendingCall s = some c) (ha : AnswersCall c a) :
    step s = State.answered Config.platform { s with inputs := rest, outputs := s.outputs ++ [.call c] } a := by
  have hcall' : pendingCall { s with inputs := rest } = some c := hcall
  have hans : answers c a = true := (answers_iff c a).2 ha
  rw [step_input hin]
  change answerStep Config.platform a { s with inputs := rest } = _
  simp only [answerStep, hcall', hans, if_true]
  rfl

/-- The core's turn in DTKS is the title-key decryption (44_authentication R217). -/
theorem internalStep_dtks (cfg : Config) {s : State} (hbusy : s.status.busy = true) (hfsm : s.ctx.fsm = .dtks) :
    internalStep cfg s = .next (s.decryptStep cfg) := by simp [internalStep, hbusy, hfsm]

theorem decryptStep_of_some {cfg : Config} {s : State} {tk : Block} {j : Fin 10}
    (h : decryptTitleKey cfg s.dk s.ctx.etk = some (tk, j)) :
    s.decryptStep cfg = State.acqEnd { s with ctx := { s.ctx with titleKey := tk, enc := true } } none 0x01 := by
  rw [State.decryptStep, h]

theorem decryptStep_of_none {cfg : Config} {s : State} (h : decryptTitleKey cfg s.dk s.ctx.etk = none) :
    s.decryptStep cfg = s.acqEnd (some .noMatchingPlayerKey) 0xFF := by
  rw [State.decryptStep, h]

/-- The bus-key XOR of a title key, byte by byte (42_keyderivation R176). -/
theorem xorTitleKey_eq (t bk : Block) : xorTitleKey t bk = Block.ofFn fun i => t.get i ^^^ bk.get (4 - i) :=
  Block.ext_get fun i => by rw [xorTitleKey, Block.get_xor, Block.get_rev, Block.get_ofFn]

/-! ### The obligations -/

/-- Settles O29: each answer is of the pending call's type, so `step_answer` runs its rule. -/
theorem handshakeAnswers : Obligations.HandshakeAnswers := by
  intro s rest hbusy
  refine ⟨fun hfsm hin => ?ack, fun k hfsm hin => ?key1, fun hfsm hin => ?ok, fun hfsm hin => ?failure⟩
  case ack => exact step_answer hin (pendingCall_sendch hbusy hfsm) rfl
  case key1 => exact step_answer hin (pendingCall_recvk1 hbusy hfsm) ⟨k, rfl⟩
  case ok => exact step_answer hin (pendingCall_sendk2 hbusy hfsm) (.inl rfl)
  case failure => exact step_answer hin (pendingCall_sendk2 hbusy hfsm) (.inr rfl)

/-- Settles O33: the fetch's two answers are of the pending call's type, and the stored Block is `xorTitleKey_eq`'s. -/
theorem titleKeyFetchStep : Obligations.TitleKeyFetchStep := by
  intro s rest hbusy hfsm hmode
  have hcall := pendingCall_fetch_title hbusy hfsm hmode
  refine ⟨fun d hin => ?data, fun hin => step_answer hin hcall (.inr rfl)⟩
  rw [step_answer hin hcall (.inl ⟨d, rfl⟩), ← xorTitleKey_eq]
  rfl

/-- Settles O34: the step is `decryptStep`, whose two outcomes both end the ACQ. -/
theorem titleKeyDecryptionStep : Obligations.TitleKeyDecryptionStep := by
  intro s rest hbusy hfsm hin
  have hstep : step s = .next (State.decryptStep Config.platform { s with inputs := rest }) :=
    (step_input hin).trans (internalStep_dtks Config.platform hbusy hfsm)
  rw [hstep]
  split
  case h_1 tk j hdec => exact congrArg Host.Outcome.next (decryptStep_of_some (s := { s with inputs := rest }) hdec)
  case h_2 hdec => exact congrArg Host.Outcome.next (decryptStep_of_none (s := { s with inputs := rest }) hdec)

end Sys2Proof.Machine
end

section
/-! What CLRCTX leaves, idle and busy, and the obligation on it (44_authentication R224, R225). -/

namespace Sys2Proof.Machine

/-- The abort notifies in the states that R225 lists. -/
theorem sessionGranted_iff (f : FsmState) :
    sessionGranted f = true ↔ f ∈ [FsmState.sendch, .recvk1, .resv, .recvch, .sendk2, .busk, .fetch] := by
  cases f <;> decide

/-- The whole state after an abort (44_authentication R225). -/
theorem abort_eq (s : State) :
    s.abort = { s with
      ctx := Context.reset
      status := ⟨false, true, true, false, false, false, 0x13, 0xFF⟩
      outputs :=
        if sessionGranted s.ctx.fsm then s.outputs ++ [.invalidateSession s.ctx.sid] else s.outputs } := by
  unfold State.abort
  cases sessionGranted s.ctx.fsm <;> rfl

theorem exec_clrctx_idle {s : State} (hidle : s.status.busy = false) :
    exec .clrctx s = .next (s.accept.clearContext.complete none 0x00) := by
  change execClrctx s = _
  simp [execClrctx, hidle]

theorem exec_clrctx_busy {s : State} (hbusy : s.status.busy = true) : exec .clrctx s = .next s.abort := by
  change execClrctx s = _
  simp [execClrctx, hbusy]

/-- Settles O27: an idle core completes on the cleared context, and a busy one is left as `abort_eq` says. -/
theorem clrctxClearsTheContextAndAborts : Obligations.ClrctxClearsTheContextAndAborts := by
  intro s
  refine ⟨fun hidle => exec_clrctx_idle hidle, fun hbusy => ?_⟩
  simp only [exec_clrctx_busy hbusy, abort_eq, sessionGranted_iff]
  rfl

end Sys2Proof.Machine
end

section
/-! What each step of the machine does to ENC, and the obligation on it (44_authentication R222). -/

namespace Sys2Proof.Machine

/-! ### Answers leave ENC -/

theorem sessionEnd_enc {s t : State} {e : Option CoreError} (h : s.sessionEnd e = .next t) :
    t.ctx.enc = s.ctx.enc := by
  rcases sessionEnd_cases s e with ⟨-, he⟩ | ⟨-, he⟩ | ⟨-, he⟩ | ⟨-, he⟩ <;> rw [he] at h <;> cases h
  · cases e <;> rfl
  · rcases e with _ | e
    · rfl
    · cases e <;> rfl
  · cases e <;> rfl

theorem grantFailed_enc {cfg : Config} {s t : State} (h : s.grantFailed cfg = .next t) :
    t.ctx.enc = s.ctx.enc := by
  unfold State.grantFailed at h
  dsimp only at h
  split at h
  case isTrue => exact (sessionEnd_enc h).trans rfl
  case isFalse => cases h; rfl

theorem challengeReceived_enc {cfg : Config} {s t : State} {c : Challenge}
    (h : s.challengeReceived cfg c = .next t) : t.ctx.enc = s.ctx.enc := by
  unfold State.challengeReceived at h
  split at h <;> cases h
  rfl

/-- No answer of the collaborator changes ENC. -/
theorem answered_enc {cfg : Config} {a : Answer} {s t : State} (h : s.answered cfg a = .next t) :
    t.ctx.enc = s.ctx.enc := by
  cases a with
  | sid | ack | block | ok => cases h; rfl
  | grantFail => exact grantFailed_enc h
  | challenge c => exact challengeReceived_enc h
  | noChannel | authFailure | error => exact sessionEnd_enc h
  | diskData d => exact sessionEnd_enc (s := s.store dkBase _) h
  | titleData d => exact sessionEnd_enc (s := { s with ctx := { s.ctx with etk := xorTitleKey d s.ctx.keycheck } }) h

theorem answerStep_enc {cfg : Config} {a : Answer} {s t : State} (h : answerStep cfg a s = .next t) :
    t.ctx.enc = s.ctx.enc := by
  rcases answerStep_cases cfg a s with he | ⟨c, -, -, he⟩ <;> rw [he] at h
  · cases h; rfl
  · exact (answered_enc h).trans (by rw [emit_ctx])

/-! ### The core's own turn sets ENC in DTKS only -/

/-- The step from `s` to `t` is the DTKS step that stores a decrypted title key and sets ENC (44_authentication
R217). -/
def StoresTitleKey (cfg : Config) (s t : State) : Prop :=
  s.status.busy = true ∧ s.ctx.fsm = .dtks ∧ t.ctx.enc = true ∧
    ∃ tk j, decryptTitleKey cfg s.dk s.ctx.etk = some (tk, j) ∧ t.ctx.titleKey = tk

theorem resolveStep_enc {cfg : Config} {s t : State} (h : s.resolveStep cfg = .next t) :
    t.ctx.enc = s.ctx.enc := by
  unfold State.resolveStep at h
  split at h
  · exact sessionEnd_enc h
  · cases h; rfl

theorem busKeyStep_enc {cfg : Config} {s t : State} (h : s.busKeyStep cfg = .next t) :
    t.ctx.enc = s.ctx.enc := by
  unfold State.busKeyStep at h
  split at h <;> cases h
  rfl

theorem internalStep_enc {cfg : Config} {s t : State} (h : internalStep cfg s = .next t) :
    t.ctx.enc = s.ctx.enc ∨ StoresTitleKey cfg s t := by
  rcases internalStep_cases cfg s with he | ⟨hbusy, ⟨-, he⟩ | ⟨-, he⟩ | ⟨hdtks, he⟩⟩ <;> rw [he] at h
  · cases h; exact .inl rfl
  · exact .inl (resolveStep_enc h)
  · exact .inl (busKeyStep_enc h)
  · cases h
    rcases hdec : decryptTitleKey cfg s.dk s.ctx.etk with _ | ⟨tk, j⟩
    · left; rw [decryptStep_of_none hdec, acqEnd_ctx]
    · right; rw [decryptStep_of_some hdec]; exact ⟨hbusy, hdtks, rfl, tk, j, hdec, rfl⟩

/-! ### CLRCTX and an accepted ACQ clear ENC, and no other command or write changes it -/

/-- The inputs that clear ENC: reset, CLRCTX's word, and ACQ's word while the core is idle (44_authentication R222). -/
def ClearsEnc (s : State) (i : Input) : Prop :=
  i = .reset ∨ i = .hostWrite 0x1080 4 0x4C000000 ∨ (i = .hostWrite 0x1080 4 0x44000000 ∧ s.status.busy = false)

/-- A command is decoded from its own word only (30_encoding R97). -/
theorem eq_encode_of_decode {w : Word} {i : Instr} (h : decode w = .ok i) : w = encode i := by
  obtain ⟨-, hfields⟩ := encodeFields_of_decodeFields h
  rw [encode, hfields, Laws.wordOf_fieldsOf]

theorem submitCommand_enc {w : Word} {s t : State} (h : submitCommand w s = .next t) :
    t.ctx.enc = s.ctx.enc ∨ (t.ctx.enc = false ∧ ClearsEnc s (.hostWrite 0x1080 4 w)) := by
  rcases submitCommand_cases h with
    ⟨-, rfl⟩ | ⟨-, hprim⟩ | ⟨-, md, rfl⟩ | ⟨hidle, hacq, rfl⟩ | ⟨hclr, rfl⟩
  · exact .inl rfl
  · exact .inl (by rw [hprim.ctx])
  · exact .inl rfl
  · have hw : w = 0x44000000 := eq_encode_of_decode hacq
    exact .inr ⟨rfl, .inr (.inr ⟨by rw [hw], hidle⟩)⟩
  · refine .inr ⟨?_, .inr (.inl (by rw [word_of_decode_clrctx hclr]))⟩
    split
    · rw [abort_eq]; rfl
    · rfl

@[simp] theorem storeLocation_ctx (s : State) (addr : HostAddr) (v : Word) :
    (s.storeLocation addr v).ctx = s.ctx := by
  unfold State.storeLocation
  split <;> rfl

@[simp] theorem hostStore_ctx (s : State) (addr : HostAddr) (v : Word) : (s.hostStore addr v).ctx = s.ctx := by
  unfold State.hostStore
  split
  · rfl
  · exact storeLocation_ctx s addr v

@[simp] theorem hostRead_ctx (s : State) (addr : HostAddr) (n : Nat) : (s.hostRead addr n).ctx = s.ctx := by
  unfold State.hostRead
  split <;> rfl

/-- CMD takes 4-byte writes only (20_memory R62). -/
theorem legalAccess_cmd_width {n : Nat} (h : legalAccess cmdAddr n = true) : n = 4 :=
  eq_of_beq (show (n == 4) = true from h)

theorem hostWrite_enc {s t : State} {addr : HostAddr} {n : Nat} {v : Word} (h : hostWrite addr n v s = .next t) :
    t.ctx.enc = s.ctx.enc ∨ (t.ctx.enc = false ∧ ClearsEnc s (.hostWrite addr n v)) := by
  unfold hostWrite at h
  split at h
  case isFalse => cases h; exact .inl rfl
  case isTrue hlegal =>
    split at h
    case isFalse => cases h; exact .inl (by rw [hostStore_ctx])
    case isTrue haddr =>
      subst haddr
      obtain rfl := legalAccess_cmd_width hlegal
      exact submitCommand_enc h

/-! ### ENC across every step -/

theorem takeInput_enc {i : Input} {s t : State} (h : takeInput i s = .next t) :
    t.ctx.enc = s.ctx.enc ∨ StoresTitleKey Config.platform s t ∨ (t.ctx.enc = false ∧ ClearsEnc s i) := by
  cases i with
  | hostRead addr n => cases h; exact .inl (by rw [hostRead_ctx])
  | hostWrite addr n v => exact (hostWrite_enc h).imp_right .inr
  | answer a => exact .inl (answerStep_enc h)
  | lateAnswer a => cases h; exact .inl rfl
  | coreTurn => exact (internalStep_enc h).imp_right .inl
  | reset => cases h; exact .inr (.inr ⟨rfl, .inl rfl⟩)

/-- A step keeps ENC, or is the decryption that sets it, or takes an input that clears it. -/
theorem step_enc {s t : State} (h : step s = .next t) :
    t.ctx.enc = s.ctx.enc ∨ StoresTitleKey Config.platform s t ∨
      (t.ctx.enc = false ∧ ∃ i rest, s.inputs = i :: rest ∧ ClearsEnc s i) := by
  rcases step_cases s with ⟨-, he⟩ | ⟨i, rest, hin, he⟩ <;> rw [he] at h
  · exact (internalStep_enc h).imp_right .inl
  · rcases takeInput_enc h with hkept | hset | ⟨hclear, hi⟩
    · exact .inl hkept
    · exact .inr (.inl hset)
    · exact .inr (.inr ⟨hclear, i, rest, hin, hi⟩)

/-- STATUS shows ENC in bit 6 (10_state R28). -/
theorem statusWord_enc (s : State) : (statusWord s).getLsbD 6 = s.ctx.enc := by
  simp only [statusWord, BitVec.getLsbD_append]
  simp

/-- Settles O52: of the three things `step_enc` leaves a step to do with ENC, setting it is the decryption's alone, and
clearing it the three inputs' alone. -/
theorem encryptedFlagFollowsDecryption : Obligations.EncryptedFlagFollowsDecryption := by
  refine ⟨statusWord_enc, fun s t h => ⟨fun hset => ?set, fun hclear => ?clear⟩⟩
  case set =>
    rcases step_enc h with hkept | ⟨hbusy, hdtks, -, hkey⟩ | ⟨hcleared, -⟩
    · exact .inl (hkept ▸ hset)
    · exact .inr ⟨hbusy, hdtks, hkey⟩
    · exact absurd (hcleared.symm.trans hset) Bool.false_ne_true
  case clear =>
    rcases step_enc h with hkept | ⟨-, -, hset, -⟩ | ⟨-, i, rest, hin, hi⟩
    · exact .inl (hkept ▸ hclear)
    · exact absurd (hclear.symm.trans hset) Bool.false_ne_true
    · refine .inr ⟨rest, ?_⟩
      rcases hi with rfl | rfl | ⟨rfl, hidle⟩
      · exact .inl hin
      · exact .inr (.inl hin)
      · exact .inr (.inr ⟨hin, hidle⟩)

end Sys2Proof.Machine
end

section
/-! The encoder against the decoder and the opcode map, and the obligations on encoding (30_encoding R91-R97, R106). -/

namespace Sys2Proof.Machine

/-! ### Decoding an encoded command -/

/-- The fields of a well-formed command are read back as that command: `Laws.FieldRoundTrip` of each constructor. -/
theorem decodeFields_encodeFields {i : Instr} (h : i.wellFormed = true) : decodeFields (encodeFields i) = .ok i := by
  cases i with
  | nop => exact Laws.FieldRoundTrip.nop h
  | gen rs len => exact Laws.FieldRoundTrip.gen rs len h
  | bc rd cs var => exact Laws.FieldRoundTrip.bc rd cs var h
  | k1t rd cs var => exact Laws.FieldRoundTrip.k1t rd cs var h
  | k2t rd cs var => exact Laws.FieldRoundTrip.k2t rd cs var h
  | bkt rd cs var => exact Laws.FieldRoundTrip.bkt rd cs var h
  | findv cs ra => exact Laws.FieldRoundTrip.findv cs ra h
  | initch cd => exact Laws.FieldRoundTrip.initch cd h
  | cat cd ra rb => exact Laws.FieldRoundTrip.cat cd ra rb h
  | mix rd rs inv => exact Laws.FieldRoundTrip.mix rd rs inv h
  | lddk rd off => exact Laws.FieldRoundTrip.lddk rd off h
  | dtk rd rs => exact Laws.FieldRoundTrip.dtk rd rs h
  | xdk rs => exact Laws.FieldRoundTrip.xdk rs h
  | xbk rd rs => exact Laws.FieldRoundTrip.xbk rd rs h
  | dscr rs offset => exact Laws.FieldRoundTrip.dscr rs offset h
  | auth mode => exact Laws.FieldRoundTrip.auth mode h
  | acq => exact Laws.FieldRoundTrip.acq h
  | descr offset => exact Laws.FieldRoundTrip.descr offset h
  | clrctx => exact Laws.FieldRoundTrip.clrctx h

theorem decode_encode {i : Instr} (h : i.wellFormed = true) : decode (encode i) = .ok i := by
  rw [decode, encode, Laws.fieldsOf_wordOf, decodeFields_encodeFields h]

theorem wellFormed_of_decode {w : Word} {i : Instr} (h : decode w = .ok i) : i.wellFormed = true :=
  (encodeFields_of_decodeFields h).1

/-! ### A word that fits a row decodes -/

/-- A challenge field whose upper bits the mask holds at zero is 0 or 1 (30_encoding R93). -/
theorem ok_of_masked {c : CrField} (h : c &&& 6#3 = 0#3) : CrField.ok c = true := by
  revert c; decide

/-! A mask of all ones, as R97 has it where a row fixes a field, keeps the field. -/

theorem op_and_fullMask (b : BitVec 6) : b &&& 63#6 = b := BitVec.and_allOnes
theorem var_and_fullMask (b : BitVec 5) : b &&& 31#5 = b := BitVec.and_allOnes
theorem reg_and_fullMask (b : BitVec 3) : b &&& 7#3 = b := BitVec.and_allOnes
theorem inv_and_fullMask (b : BitVec 1) : b &&& 1#1 = b := BitVec.and_allOnes
theorem imm_and_fullMask (b : BitVec 11) : b &&& 2047#11 = b := BitVec.and_allOnes

/-- Fields that fit a row are those of a command of the row's mnemonic: what the row leaves free is the command's
operands, and what it fixes is as `encodeFields` has it. -/
theorem exists_command_of_fitsFields {r : CommandRow} {f : Fields} (hr : r ∈ commandRows) (h : r.FitsFields f) :
    ∃ i : Instr, i.wellFormed = true ∧ mnemonicOf i = r.mnemonic ∧ encodeFields i = f := by
  obtain ⟨op, var, rd, rs, rt, inv, imm⟩ := f
  obtain ⟨hmatch, hmin, hmax⟩ := h
  simp only [commandRows, List.mem_cons, List.not_mem_nil, or_false] at hr
  rcases hr with rfl | rfl | rfl | rfl | rfl | rfl | rfl | rfl | rfl | rfl | rfl | rfl | rfl | rfl | rfl | rfl | rfl |
    rfl | rfl
  -- The row's match and mask fix these fields; then one goal per row, in the order of `commandRows`.
  all_goals simp [maskedFields, fieldsOf, op_and_fullMask, var_and_fullMask, reg_and_fullMask, inv_and_fullMask,
    imm_and_fullMask] at hmatch
  · obtain ⟨rfl, rfl, rfl, rfl, rfl, rfl, rfl⟩ := hmatch
    exact ⟨.nop, rfl, rfl, rfl⟩
  · obtain ⟨rfl, rfl, rfl, rfl, rfl⟩ := hmatch
    exact ⟨.gen rs imm, by simpa [Instr.wellFormed, Imm.isLength] using ⟨hmin, hmax⟩, rfl, rfl⟩
  · obtain ⟨rfl, hcs, rfl, rfl, rfl⟩ := hmatch
    exact ⟨.bc rd rs var, ok_of_masked hcs, rfl, rfl⟩
  · obtain ⟨rfl, hcs, rfl, rfl, rfl⟩ := hmatch
    exact ⟨.k1t rd rs var, ok_of_masked hcs, rfl, rfl⟩
  · obtain ⟨rfl, hcs, rfl, rfl, rfl⟩ := hmatch
    exact ⟨.k2t rd rs var, ok_of_masked hcs, rfl, rfl⟩
  · obtain ⟨rfl, hcs, rfl, rfl, rfl⟩ := hmatch
    exact ⟨.bkt rd rs var, ok_of_masked hcs, rfl, rfl⟩
  · obtain ⟨rfl, rfl, rfl, hcs, rfl, rfl⟩ := hmatch
    exact ⟨.findv rs rt, ok_of_masked hcs, rfl, rfl⟩
  · obtain ⟨rfl, rfl, hcd, rfl, rfl, rfl, rfl⟩ := hmatch
    exact ⟨.initch rd, ok_of_masked hcd, rfl, rfl⟩
  · obtain ⟨rfl, rfl, hcd, rfl, rfl⟩ := hmatch
    exact ⟨.cat rd rs rt, ok_of_masked hcd, rfl, rfl⟩
  · obtain ⟨rfl, rfl, rfl, rfl⟩ := hmatch
    exact ⟨.mix rd rs (inv == 1#1), rfl, rfl, by simp [encodeFields, Fields.ofOp, ofBool_beq_one]⟩
  · obtain ⟨rfl, rfl, rfl, rfl, rfl⟩ := hmatch
    exact ⟨.lddk rd imm, by simpa [Instr.wellFormed, Imm.isDiskKeyOffset] using hmax, rfl, rfl⟩
  · obtain ⟨rfl, rfl, rfl, rfl, rfl⟩ := hmatch
    exact ⟨.dtk rd rs, rfl, rfl, rfl⟩
  · obtain ⟨rfl, rfl, rfl, rfl, rfl, rfl⟩ := hmatch
    exact ⟨.xdk rs, rfl, rfl, rfl⟩
  · obtain ⟨rfl, rfl, rfl, rfl, rfl⟩ := hmatch
    exact ⟨.xbk rd rs, rfl, rfl, rfl⟩
  · obtain ⟨rfl, rfl, rfl, rfl, rfl⟩ := hmatch
    exact ⟨.dscr rs imm, rfl, rfl, rfl⟩
  · obtain ⟨rfl, rfl, rfl, rfl, rfl, rfl, -⟩ := hmatch
    exact ⟨.auth imm, by simpa [Instr.wellFormed, Imm.isMode] using hmax, rfl, rfl⟩
  · obtain ⟨rfl, rfl, rfl, rfl, rfl, rfl, rfl⟩ := hmatch
    exact ⟨.acq, rfl, rfl, rfl⟩
  · obtain ⟨rfl, rfl, rfl, rfl, rfl, rfl⟩ := hmatch
    exact ⟨.descr imm, rfl, rfl, rfl⟩
  · obtain ⟨rfl, rfl, rfl, rfl, rfl, rfl, rfl⟩ := hmatch
    exact ⟨.clrctx, rfl, rfl, rfl⟩

/-- A word of a row decodes to a command of the row's mnemonic (30_encoding R97). -/
theorem decode_of_fits {r : CommandRow} {w : Word} (hr : r ∈ commandRows) (h : r.fits w) :
    ∃ i, decode w = .ok i ∧ mnemonicOf i = r.mnemonic := by
  obtain ⟨i, hwf, hmnemonic, hfields⟩ := exists_command_of_fitsFields hr ((r.fits_iff w).1 h)
  exact ⟨i, by rw [decode, ← hfields, decodeFields_encodeFields hwf], hmnemonic⟩

/-! ### The obligations -/

/-- Settles O1: the word gives its fields back, and each constructor's fields decode to it. -/
theorem encodedCommandsDecodeToThemselves : Obligations.EncodedCommandsDecodeToThemselves :=
  fun _ hwf => decode_encode hwf

/-- Settles O2: the decoder accepts only the fields that its command encodes to, and a word is its fields. -/
theorem decodedWordsEncodeToThemselves : Obligations.DecodedWordsEncodeToThemselves :=
  fun _ _ h => ⟨wellFormed_of_decode h, (eq_encode_of_decode h).symm⟩

/-- Settles O3: a word that decodes fits its mnemonic's row, and the fields of a row's word are those of a command of
that mnemonic. -/
theorem legalWordsAreTheOpcodeMap : Obligations.LegalWordsAreTheOpcodeMap :=
  ⟨fun _ _ h => exists_row_of_decode h, fun _ _ hr h => decode_of_fits hr h⟩

/-- Settles O4: each of the sixteen words is fixed, so the decoder is evaluated on it. -/
theorem manualEncodingExamplesDecode : Obligations.ManualEncodingExamplesDecode := by
  unfold Obligations.ManualEncodingExamplesDecode
  decide

end Sys2Proof.Machine
end

section
/-! What an FSM step leaves of the core, said once, and the obligation on it (44_authentication R205-R217, 60_exceptions
R249). -/

namespace Sys2Proof.Machine

/-- What an FSM step leaves beside the context and the outputs: STATUS is as it was, or completed. -/
structure FsmFrame (s t : State) : Prop where
  br : t.br = s.br
  cr : t.cr = s.cr
  mem : t.mem = s.mem
  lba : t.lba = s.lba
  inputs : t.inputs = s.inputs
  status : t.status = s.status ∨ ∃ e r, t.status = s.status.completed e r

/-- A change of the context and the outputs alone is in the frame. -/
theorem FsmFrame.of_ctx_outputs (s : State) (c : Context) (os : List Output) :
    FsmFrame s { s with ctx := c, outputs := os } := ⟨rfl, rfl, rfl, rfl, rfl, .inl rfl⟩

theorem FsmFrame.refl (s : State) : FsmFrame s s := .of_ctx_outputs s s.ctx s.outputs

/-- Only the last of two completions is seen. -/
theorem FsmFrame.trans {s t u : State} (h : FsmFrame s t) (k : FsmFrame t u) : FsmFrame s u where
  br := k.br.trans h.br
  cr := k.cr.trans h.cr
  mem := k.mem.trans h.mem
  lba := k.lba.trans h.lba
  inputs := k.inputs.trans h.inputs
  status := by
    rcases k.status with hk | ⟨e, r, hk⟩
    · rw [hk]; exact h.status
    · right
      rcases h.status with hh | ⟨_, _, hh⟩
      · exact ⟨e, r, by rw [hk, hh]⟩
      · exact ⟨e, r, by rw [hk, hh]; rfl⟩

/-- The sticky bits and ANOM are no part of a completion (30_encoding R107). -/
theorem FsmFrame.stays {s t : State} (h : FsmFrame s t) :
    t.status.anom = s.status.anom ∧ t.status.busyWr = s.status.busyWr ∧ t.status.hostErr = s.status.hostErr := by
  rcases h.status with hs | ⟨e, r, hs⟩ <;> simp [hs]

/-! ### Sessions end within the frame -/

theorem completeSession_frame (s : State) (e : Option CoreError) (r : Byte) : FsmFrame s (s.completeSession e r) :=
  ⟨rfl, rfl, rfl, rfl, rfl, .inr ⟨e, r, rfl⟩⟩

theorem acqEnd_frame (s : State) (e : Option CoreError) (r : Byte) : FsmFrame s (s.acqEnd e r) :=
  ⟨rfl, rfl, rfl, rfl, rfl, .inr ⟨e, r, rfl⟩⟩

theorem endAuth_frame (s : State) (e : Option CoreError) : FsmFrame s (s.endAuth e) := by
  cases e <;> exact completeSession_frame s _ _

theorem endDiskSession_frame (s : State) (e : Option CoreError) : FsmFrame s (s.endDiskSession e) := by
  rcases e with _ | e
  · exact .of_ctx_outputs s _ _
  · cases e <;> exact acqEnd_frame s _ _

theorem endTitleSession_frame (s : State) (e : Option CoreError) : FsmFrame s (s.endTitleSession e) := by
  cases e
  · exact .of_ctx_outputs s _ _
  · exact acqEnd_frame s _ _

theorem sessionEnd_frame {s t : State} {e : Option CoreError} (h : s.sessionEnd e = .next t) : FsmFrame s t := by
  rcases sessionEnd_cases s e with ⟨-, he⟩ | ⟨-, he⟩ | ⟨-, he⟩ | ⟨-, he⟩ <;> rw [he] at h <;> cases h
  · exact endAuth_frame s e
  · exact endDiskSession_frame s e
  · exact endTitleSession_frame s e

/-! ### Each step of the FSM -/

theorem grantFailed_frame {cfg : Config} {s t : State} (h : s.grantFailed cfg = .next t) : FsmFrame s t := by
  unfold State.grantFailed at h
  dsimp only at h
  split at h
  case isTrue => exact .trans (.of_ctx_outputs s _ _) (sessionEnd_frame h)
  case isFalse => cases h; exact .of_ctx_outputs s _ _

theorem challengeReceived_frame {cfg : Config} {s t : State} {c : Challenge}
    (h : s.challengeReceived cfg c = .next t) : FsmFrame s t := by
  unfold State.challengeReceived at h
  split at h <;> cases h
  exact .of_ctx_outputs s _ _

/-- The state in which the fetched disk key stands in DK, bus-key XORed (44_authentication R214). -/
def State.storeDiskKey (s : State) (d : Vector Byte 2048) : State :=
  s.store dkBase (xorCyclic s.ctx.keycheck 0 d.toList)

theorem diskKeyFetched_frame {s t : State} {d : Vector Byte 2048} (h : s.diskKeyFetched d = .next t) :
    FsmFrame (s.storeDiskKey d) t := sessionEnd_frame h

/-- Every answer but the disk key's data leaves memory too. -/
theorem answered_frame {cfg : Config} {a : Answer} {s t : State} (h : s.answered cfg a = .next t)
    (ha : ∀ d, a ≠ .diskData d) : FsmFrame s t := by
  cases a with
  | sid | ack | block | ok => cases h; exact .of_ctx_outputs s _ _
  | grantFail => exact grantFailed_frame h
  | challenge c => exact challengeReceived_frame h
  | noChannel | authFailure | error => exact sessionEnd_frame h
  | titleData d => exact .trans (.of_ctx_outputs s _ _) (sessionEnd_frame h)
  | diskData d => exact absurd rfl (ha d)

/-- The FSM state whose call has the answer (44_authentication R201, R203). -/
def answerState : Answer → FsmState
  | .noChannel => .req
  | .grantFail => .req
  | .sid _ => .req
  | .ack => .sendch
  | .block _ => .recvk1
  | .challenge _ => .recvch
  | .ok => .sendk2
  | .authFailure => .sendk2
  | .diskData _ => .fetch
  | .titleData _ => .fetch
  | .error => .fetch

/-- An answer of the pending call's type tells the core's FSM state. -/
theorem fsm_of_answers {s : State} {c : Call} {a : Answer} (hcall : pendingCall s = some c) (ha : answers c a = true) :
    s.status.busy = true ∧ s.ctx.fsm = answerState a := by
  obtain ⟨hbusy, hcases⟩ := pendingCall_cases hcall
  have hans := (answers_iff c a).1 ha
  refine ⟨hbusy, ?_⟩
  rcases hcases with ⟨hf, rfl⟩ | ⟨hf, rfl⟩ | ⟨hf, rfl⟩ | ⟨hf, rfl⟩ | ⟨hf, rfl⟩ | ⟨hf, -, rfl⟩ | ⟨hf, -, rfl⟩
  · obtain rfl | rfl | ⟨v, rfl⟩ := hans <;> exact hf
  · obtain rfl := hans; exact hf
  · obtain ⟨k, rfl⟩ := hans; exact hf
  · obtain ⟨x, rfl⟩ := hans; exact hf
  · obtain rfl | rfl := hans <;> exact hf
  · obtain ⟨d, rfl⟩ | rfl := hans <;> exact hf
  · obtain ⟨d, rfl⟩ | rfl := hans <;> exact hf

/-- The disk key's data answers the disk-key fetch only. -/
theorem mode_of_answers_diskData {s : State} {c : Call} {d : Vector Byte 2048} (hcall : pendingCall s = some c)
    (ha : answers c (.diskData d) = true) : s.ctx.mode = .disk := by
  obtain ⟨-, hcases⟩ := pendingCall_cases hcall
  rcases hcases with ⟨-, rfl⟩ | ⟨-, rfl⟩ | ⟨-, rfl⟩ | ⟨-, rfl⟩ | ⟨-, rfl⟩ | ⟨-, hmode, rfl⟩ | ⟨-, -, rfl⟩
  · cases ha
  · cases ha
  · cases ha
  · cases ha
  · cases ha
  · exact hmode
  · cases ha

/-- The step is the one in which the disk-key fetch answers its data (44_authentication R214). -/
def FetchesDiskKey (s : State) (a : Answer) (t : State) : Prop :=
  s.status.busy = true ∧ s.ctx.fsm = .fetch ∧ s.ctx.mode = .disk ∧
    ∃ d, a = .diskData d ∧ FsmFrame (s.storeDiskKey d) t

theorem answerStep_frame {cfg : Config} {a : Answer} {s t : State} (h : answerStep cfg a s = .next t) :
    FsmFrame s t ∨ FetchesDiskKey s a t := by
  rcases answerStep_cases cfg a s with he | ⟨c, hcall, ha, he⟩ <;> rw [he] at h
  · cases h; exact .inl (.refl s)
  · rcases Classical.em (∃ d, a = .diskData d) with ⟨d, rfl⟩ | hd
    · obtain ⟨hbusy, hfsm⟩ := fsm_of_answers hcall ha
      have hstore : FsmFrame (s.storeDiskKey d) ((s.emit (.call c)).storeDiskKey d) := .of_ctx_outputs _ _ _
      exact .inr ⟨hbusy, hfsm, mode_of_answers_diskData hcall ha, d, rfl, hstore.trans (diskKeyFetched_frame h)⟩
    · exact .inl (.trans (.of_ctx_outputs s _ _) (answered_frame h fun d e => hd ⟨d, e⟩))

theorem resolveStep_frame {cfg : Config} {s t : State} (h : s.resolveStep cfg = .next t) : FsmFrame s t := by
  unfold State.resolveStep at h
  split at h
  · exact sessionEnd_frame h
  · cases h; exact .of_ctx_outputs s _ _

theorem busKeyStep_frame {cfg : Config} {s t : State} (h : s.busKeyStep cfg = .next t) : FsmFrame s t := by
  unfold State.busKeyStep at h
  split at h <;> cases h
  exact .of_ctx_outputs s _ _

theorem decryptStep_frame (cfg : Config) (s : State) : FsmFrame s (s.decryptStep cfg) := by
  unfold State.decryptStep
  split
  · exact acqEnd_frame s _ _
  · exact .trans (.of_ctx_outputs s _ _) (acqEnd_frame _ _ _)

theorem internalStep_frame {cfg : Config} {s t : State} (h : internalStep cfg s = .next t) : FsmFrame s t := by
  rcases internalStep_cases cfg s with he | ⟨-, ⟨-, he⟩ | ⟨-, he⟩ | ⟨-, he⟩⟩ <;> rw [he] at h
  · cases h; exact .refl s
  · exact resolveStep_frame h
  · exact busKeyStep_frame h
  · cases h; exact decryptStep_frame cfg s

/-! ### The obligation -/

/-- The fetched disk key is the whole of DK (10_state R26). -/
theorem diskKey_length (bk : Block) (d : Vector Byte 2048) : (xorCyclic bk 0 d.toList).length = 2048 := by simp

/-- Outside DK the fetched disk key changes nothing. -/
theorem storeDiskKey_read_outside (s : State) (d : Vector Byte 2048) {a : Nat} (h : a < 0x0800 ∨ 0x1000 ≤ a) :
    (s.storeDiskKey d).mem.read a = s.mem.read a := by
  rw [State.storeDiskKey, store_mem, read_write_outside]
  rw [diskKey_length]
  exact h

/-- A step by an answer or by the core's turn, as an FSM step on the state without that input. -/
theorem step_fsm_frame {s t : State} {rest : List Input}
    (hin : (∃ a, s.inputs = .answer a :: rest) ∨ s.inputs = .coreTurn :: rest ∨ (s.inputs = [] ∧ rest = []))
    (h : step s = .next t) :
    FsmFrame { s with inputs := rest } t ∨
      ∃ a, s.inputs = .answer a :: rest ∧ FetchesDiskKey { s with inputs := rest } a t := by
  rcases hin with ⟨a, hin⟩ | hin | ⟨hin, rfl⟩
  · rw [step_input hin] at h
    exact (answerStep_frame h).imp_right fun hd => ⟨a, hin, hd⟩
  · rw [step_input hin] at h
    exact .inl (internalStep_frame h)
  · have hs : { s with inputs := [] } = s := by rw [← hin]
    rw [step, hin] at h
    rw [hs]
    exact .inl (internalStep_frame h)

/-- Settles O54: every FSM step is in `FsmFrame`, of the state itself or, for the disk key's data, of the state with DK
stored. -/
theorem fsmStepsWriteOnlyTheContextAndDiskKey : Obligations.FsmStepsWriteOnlyTheContextAndDiskKey := by
  intro s t rest hin h
  rcases step_fsm_frame hin h with hframe | ⟨_, hin, hbusy, hfsm, hmode, d, rfl, hframe⟩
  · obtain ⟨hanom, hbusyWr, hhostErr⟩ := hframe.stays
    have hmem : t.mem = s.mem := hframe.mem
    exact ⟨hframe.br, hframe.cr, hframe.lba, hframe.inputs, by rw [hmem], fun a _ => by rw [hmem],
      fun _ a => by rw [hmem], hanom, hbusyWr, hhostErr⟩
  · obtain ⟨hanom, hbusyWr, hhostErr⟩ := hframe.stays
    have hmem : t.mem = (s.storeDiskKey d).mem := hframe.mem
    exact ⟨hframe.br, hframe.cr, hframe.lba, hframe.inputs, by rw [hmem]; rfl,
      fun a ha => by rw [hmem, storeDiskKey_read_outside s d ha],
      fun hother => absurd ⟨hbusy, hfsm, hmode, d, hin⟩ hother, hanom, hbusyWr, hhostErr⟩

end Sys2Proof.Machine
end

section
/-! The invariant at reset and across every step, that no step of a sound state stops, and that the sticky bits stay
(44_authentication R231, 60_exceptions R244, R246). -/

namespace Sys2Proof.Machine

/-! ### STATUS -/

theorem StatusSound.of_frame {s t : State} (h : StatusSound s.status) (hf : FsmFrame s t) : StatusSound t.status := by
  rcases hf.status with hs | ⟨e, r, hs⟩ <;> rw [hs]
  · exact h
  · exact completed_sound _ _ _

/-- An accepted session command, with BUSY set, reports nothing yet (30_encoding R101). -/
theorem accepted_busy_sound (u : Status) : StatusSound { u.accepted with busy := true } :=
  ⟨fun _ => ⟨rfl, rfl, rfl, rfl⟩, none, rfl, rfl⟩

/-! ### The session registers: what makes them sound -/

/-- Soundness speaks of the context and BUSY alone. -/
theorem SessionSound.congr {cfg : Config} {s t : State} (h : SessionSound cfg s) (hctx : t.ctx = s.ctx)
    (hbusy : t.status.busy = s.status.busy) : SessionSound cfg t := by
  obtain ⟨h1, h2, h3, h4, h5, h6, h7, h8, h9, h10⟩ := h
  constructor <;> rw [hctx]
  case idle_iff => rwa [hbusy]
  case phase_busy => rwa [hbusy]
  all_goals assumption

/-- An idle core with no ACQ in progress is sound. -/
theorem sessionSound_idle {cfg : Config} {t : State} (hfsm : t.ctx.fsm = .idle) (hbusy : t.status.busy = false)
    (hphase : t.ctx.acqPhase = .inactive) (hatt : t.ctx.attempts.toNat ≤ grantMaxAttempts cfg) :
    SessionSound cfg t := by
  constructor <;> simp [hfsm, hbusy, hphase, hatt, variantInUse, variantSought]

/-- A started session is sound: its mode is that of its phase, and ENC is 0 in an ACQ (44_authentication R205, R223). -/
theorem sessionSound_started {cfg : Config} {t : State} {m : SessionMode} {p : AcqPhase} (hfsm : t.ctx.fsm = .req)
    (hbusy : t.status.busy = true) (hvar : t.ctx.variant = none) (hatt : t.ctx.attempts = 0) (hmode : t.ctx.mode = m)
    (hphase : t.ctx.acqPhase = p)
    (hp : p = .inactive ∨ (t.ctx.enc = false ∧ ((p = .diskSession ∧ m = .disk) ∨ (p = .titleSession ∧ m = .title)))) :
    SessionSound cfg t := by
  have hbudget : 0 < grantMaxAttempts cfg := Nat.succ_pos _
  rcases hp with rfl | ⟨henc, ⟨rfl, rfl⟩ | ⟨rfl, rfl⟩⟩ <;> constructor <;>
    simp [variantInUse, variantSought, *]

/-- What is left to be sound where a session ends or goes on: BUSY, the attempts and ENC. -/
structure InSession (cfg : Config) (s : State) : Prop where
  busy : s.status.busy = true
  attempts_le : s.ctx.attempts.toNat ≤ grantMaxAttempts cfg
  enc_phase : s.ctx.enc = true → s.ctx.acqPhase = .inactive

theorem SessionSound.inSession {cfg : Config} {s : State} (h : SessionSound cfg s) (hbusy : s.status.busy = true) :
    InSession cfg s := ⟨hbusy, h.attempts_le, h.enc_phase⟩

/-- An ACQ session has ENC 0 (44_authentication R223). -/
theorem InSession.enc_eq_false {cfg : Config} {s : State} (h : InSession cfg s) (hp : s.ctx.acqPhase ≠ .inactive) :
    s.ctx.enc = false :=
  Bool.eq_false_iff.2 fun he => hp (h.enc_phase he)

theorem acqEnd_sound {cfg : Config} {s : State} (h : InSession cfg s) (e : Option CoreError) (r : Byte) :
    SessionSound cfg (s.acqEnd e r) := sessionSound_idle rfl rfl rfl h.attempts_le

/-- Every end of a session leaves the registers sound (44_authentication R216). -/
theorem sessionEnd_sound {cfg : Config} {s t : State} {e : Option CoreError} (h : InSession cfg s)
    (hend : s.sessionEnd e = .next t) : SessionSound cfg t := by
  rcases sessionEnd_cases s e with ⟨hp, he⟩ | ⟨hp, he⟩ | ⟨hp, he⟩ | ⟨hp, he⟩ <;> rw [he] at hend <;> cases hend
  · cases e <;> exact sessionSound_idle rfl rfl hp h.attempts_le
  · have henc := h.enc_eq_false (by simp [hp])
    rcases e with _ | e
    · exact sessionSound_started rfl h.busy rfl rfl rfl rfl (.inr ⟨henc, .inr ⟨rfl, rfl⟩⟩)
    · cases e <;> exact acqEnd_sound h _ _
  · have henc := h.enc_eq_false (by simp [hp])
    cases e
    · constructor <;> simp [State.endTitleSession, h.busy, h.attempts_le, henc, variantInUse, variantSought]
    · exact acqEnd_sound h _ _

/-- A step to a later state of the same session, which only the variant may come with. -/
theorem SessionSound.advance {cfg : Config} {s t : State} (h : SessionSound cfg s) (hbusy : s.status.busy = true)
    (hdtks : s.ctx.fsm ≠ .dtks) (hstatus : t.status = s.status) (hmode : t.ctx.mode = s.ctx.mode)
    (hphase : t.ctx.acqPhase = s.ctx.acqPhase) (hatt : t.ctx.attempts = s.ctx.attempts) (henc : t.ctx.enc = s.ctx.enc)
    (hfsm : t.ctx.fsm ∉ [FsmState.idle, .req, .dtks])
    (hknown : variantInUse t.ctx.fsm = true → t.ctx.variant.isSome = true)
    (hunknown : variantSought t.ctx.fsm = true → t.ctx.variant = none) : SessionSound cfg t := by
  simp only [List.mem_cons, List.not_mem_nil, or_false, not_or] at hfsm
  obtain ⟨hidle, hreq, hdtks'⟩ := hfsm
  have hp : s.ctx.acqPhase ≠ .decryption := fun e => hdtks (h.decrypting.2 e)
  exact {
    idle_iff := by simp [hidle, hstatus, hbusy]
    phase_busy := fun _ => by rw [hstatus, hbusy]
    attempts_req := fun e => absurd e hreq
    attempts_le := by rw [hatt]; exact h.attempts_le
    variant_known := hknown
    variant_unknown := hunknown
    disk_mode := by rw [hphase, hmode]; exact h.disk_mode
    title_mode := by rw [hphase, hmode]; exact h.title_mode
    decrypting := by simp [hdtks', hphase, hp]
    enc_phase := by rw [henc, hphase]; exact h.enc_phase }

/-! ### The FSM's steps -/

/-- GRANT_MAX_ATTEMPTS fits a byte, so counting an attempt within the budget does not wrap (93 U6). -/
theorem attempts_succ {cfg : Config} {n : Byte} (h : n.toNat < grantMaxAttempts cfg) : (n + 1).toNat = n.toNat + 1 := by
  have hmax : grantMaxAttempts cfg ≤ 255 := cfg.grantRetries.isLt
  rw [BitVec.toNat_add]
  exact Nat.mod_eq_of_lt (by simp; omega)

/-- REQ after one more failed attempt: counted, and notified with the current SID (44_authentication R206). -/
def State.countGrantFailure (s : State) : State :=
  { s with
    ctx := { s.ctx with attempts := s.ctx.attempts + 1 }
    outputs := s.outputs ++ [.invalidateSession s.ctx.sid] }

/-- A failed grant is counted, and then ends the session or leaves it in REQ (44_authentication R206). -/
theorem grantFailed_eq (cfg : Config) (s : State) :
    s.grantFailed cfg =
      if grantMaxAttempts cfg ≤ (s.ctx.attempts + 1).toNat then
        s.countGrantFailure.sessionEnd (some .sessionGrantFailure)
      else .next (s.countGrantFailure.toFsm .req) := rfl

theorem grantFailed_sound {cfg : Config} {s t : State} (h : SessionSound cfg s) (hbusy : s.status.busy = true)
    (hreq : s.ctx.fsm = .req) (hstep : s.grantFailed cfg = .next t) : SessionSound cfg t := by
  have hlt := h.attempts_req hreq
  have hsucc := attempts_succ hlt
  have hopen : InSession cfg s.countGrantFailure := ⟨hbusy, hsucc ▸ hlt, h.enc_phase⟩
  rw [grantFailed_eq] at hstep
  split at hstep
  case isTrue => exact sessionEnd_sound hopen hstep
  case isFalse hmore =>
    cases hstep
    exact {
      idle_iff := by rw [← hreq]; exact h.idle_iff
      phase_busy := h.phase_busy
      attempts_req := fun _ => Nat.lt_of_not_le hmore
      attempts_le := hopen.attempts_le
      variant_known := fun e => by cases e
      variant_unknown := fun _ => h.variant_unknown (by rw [hreq]; rfl)
      disk_mode := h.disk_mode
      title_mode := h.title_mode
      decrypting := by rw [← hreq]; exact h.decrypting
      enc_phase := h.enc_phase }

/-- The variant is resolved in the states that use it (44_authentication R231 (d)). -/
theorem SessionSound.exists_variant {cfg : Config} {s : State} (h : SessionSound cfg s)
    (hf : variantInUse s.ctx.fsm = true) : ∃ v, s.ctx.variant = some v :=
  Option.isSome_iff_exists.1 (h.variant_known hf)

/-- Outside DTKS a session's end has a rule (44_authentication R216). -/
theorem sessionEnd_next {s : State} (e : Option CoreError) (hp : s.ctx.acqPhase ≠ .decryption) :
    ∃ t, s.sessionEnd e = .next t := by
  rcases sessionEnd_cases s e with ⟨-, he⟩ | ⟨-, he⟩ | ⟨-, he⟩ | ⟨hdec, -⟩
  · exact ⟨_, he⟩
  · exact ⟨_, he⟩
  · exact ⟨_, he⟩
  · exact absurd hdec hp

theorem SessionSound.phase_ne {cfg : Config} {s : State} (h : SessionSound cfg s) (hf : s.ctx.fsm ≠ .dtks) :
    s.ctx.acqPhase ≠ .decryption := fun e => hf (h.decrypting.2 e)

/-- DTKS has no call (44_authentication R201). -/
theorem answerState_ne_dtks (a : Answer) : answerState a ≠ .dtks := by
  cases a <;> exact FsmState.noConfusion

/-- An answer of the pending call's type steps a sound core to a sound core. -/
theorem answered_sound {cfg : Config} {a : Answer} {s : State} (h : SessionSound cfg s) (hbusy : s.status.busy = true)
    (hf : s.ctx.fsm = answerState a) : ∃ t, s.answered cfg a = .next t ∧ SessionSound cfg t := by
  have hopen := h.inSession hbusy
  have hdtks : s.ctx.fsm ≠ .dtks := hf ▸ answerState_ne_dtks a
  have hend (u : State) (hu : InSession cfg u) (hp : u.ctx.acqPhase = s.ctx.acqPhase) (e : Option CoreError) :
      ∃ t, u.sessionEnd e = .next t ∧ SessionSound cfg t := by
    obtain ⟨t, ht⟩ := sessionEnd_next (s := u) e (hp ▸ h.phase_ne hdtks)
    exact ⟨t, ht, sessionEnd_sound hu ht⟩
  cases a with
  | noChannel => exact hend s hopen rfl _
  | grantFail =>
    have hnext : ∃ t, s.grantFailed cfg = .next t := by
      rw [grantFailed_eq]
      split
      · exact sessionEnd_next (s := s.countGrantFailure) _ (h.phase_ne hdtks)
      · exact ⟨_, rfl⟩
    obtain ⟨t, ht⟩ := hnext
    exact ⟨t, ht, grantFailed_sound h hbusy hf ht⟩
  | sid v =>
    exact ⟨_, rfl, h.advance hbusy hdtks rfl rfl rfl rfl rfl (by simp) (by simp [variantInUse])
      fun _ => h.variant_unknown (by rw [hf]; rfl)⟩
  | ack =>
    exact ⟨_, rfl, h.advance hbusy hdtks rfl rfl rfl rfl rfl (by simp) (by simp [variantInUse])
      fun _ => h.variant_unknown (by rw [hf]; rfl)⟩
  | block k =>
    exact ⟨_, rfl, h.advance hbusy hdtks rfl rfl rfl rfl rfl (by simp) (by simp [variantInUse])
      fun _ => h.variant_unknown (by rw [hf]; rfl)⟩
  | challenge c =>
    obtain ⟨v, hv⟩ := h.exists_variant (by rw [hf]; rfl)
    refine ⟨_, by rw [State.answered, State.challengeReceived, hv], ?_⟩
    exact h.advance hbusy hdtks rfl rfl rfl rfl rfl (by simp) (fun _ => by simp [hv]) (by simp [variantSought])
  | ok =>
    obtain ⟨v, hv⟩ := h.exists_variant (by rw [hf]; rfl)
    exact ⟨_, rfl, h.advance hbusy hdtks rfl rfl rfl rfl rfl (by simp) (fun _ => by simp [hv])
      (by simp [variantSought])⟩
  | authFailure => exact hend s hopen rfl _
  | diskData d => exact hend (s.storeDiskKey d) ⟨hbusy, h.attempts_le, h.enc_phase⟩ rfl none
  | titleData d =>
    exact hend { s with ctx := { s.ctx with etk := xorTitleKey d s.ctx.keycheck } }
      ⟨hbusy, h.attempts_le, h.enc_phase⟩ rfl none
  | error => exact hend s hopen rfl _

theorem answerStep_sound {cfg : Config} {s : State} (a : Answer) (h : SessionSound cfg s) :
    ∃ t, answerStep cfg a s = .next t ∧ SessionSound cfg t := by
  rcases answerStep_cases cfg a s with he | ⟨c, hcall, ha, he⟩
  · exact ⟨s, he, h⟩
  · obtain ⟨hbusy, hfsm⟩ := fsm_of_answers hcall ha
    rw [he]
    exact answered_sound (s := s.emit (.call c)) (h.congr rfl rfl) hbusy hfsm

/-- The core's own turn steps a sound core to a sound core. -/
theorem internalStep_sound {cfg : Config} {s : State} (h : SessionSound cfg s) :
    ∃ t, internalStep cfg s = .next t ∧ SessionSound cfg t := by
  rcases internalStep_cases cfg s with he | ⟨hbusy, ⟨hf, he⟩ | ⟨hf, he⟩ | ⟨hf, he⟩⟩ <;> rw [he]
  · exact ⟨s, rfl, h⟩
  · have hdtks : s.ctx.fsm ≠ .dtks := by rw [hf]; decide
    cases hv : resolveVariant cfg s.ctx.chal s.ctx.key1 with
    | none =>
      obtain ⟨t, ht⟩ := sessionEnd_next (some .variantResolutionFailure) (h.phase_ne hdtks)
      exact ⟨t, by rw [State.resolveStep, hv]; exact ht, sessionEnd_sound (h.inSession hbusy) ht⟩
    | some v =>
      refine ⟨_, by rw [State.resolveStep, hv], ?_⟩
      exact h.advance hbusy hdtks rfl rfl rfl rfl rfl (by simp) (fun _ => rfl) (by simp [variantSought])
  · obtain ⟨v, hv⟩ := h.exists_variant (by rw [hf]; rfl)
    refine ⟨_, by rw [State.busKeyStep, hv], ?_⟩
    exact h.advance hbusy (by rw [hf]; decide) rfl rfl rfl rfl rfl (by simp) (fun _ => by simp [hv])
      (by simp [variantSought])
  · refine ⟨_, rfl, ?_⟩
    unfold State.decryptStep
    split
    · exact acqEnd_sound (h.inSession hbusy) _ _
    · exact sessionSound_idle rfl rfl rfl h.attempts_le

/-! ### The whole invariant -/

theorem sound_of_frame {s t : State} (h : s.Sound) (hf : FsmFrame s t) (ht : SessionSound Config.platform t) :
    t.Sound := ⟨by rw [hf.mem]; exact h.memory, h.status.of_frame hf, ht⟩

theorem storeDiskKey_wf {s : State} (h : s.mem.wf) (d : Vector Byte 2048) : (s.storeDiskKey d).mem.wf :=
  write_wf h (by rw [diskKey_length]; decide)

theorem answerStep_keeps_sound {a : Answer} {s t : State} (h : s.Sound)
    (hstep : answerStep Config.platform a s = .next t) : t.Sound := by
  obtain ⟨u, hu, hsession⟩ := answerStep_sound a h.session
  obtain rfl : u = t := by rw [hu] at hstep; cases hstep; rfl
  rcases answerStep_frame hstep with hf | ⟨-, -, -, d, -, hf⟩
  · exact sound_of_frame h hf hsession
  · exact ⟨by rw [hf.mem]; exact storeDiskKey_wf h.memory d, StatusSound.of_frame (s := s.storeDiskKey d) h.status hf,
      hsession⟩

theorem internalStep_keeps_sound {s t : State} (h : s.Sound) (hstep : internalStep Config.platform s = .next t) :
    t.Sound := by
  obtain ⟨u, hu, hsession⟩ := internalStep_sound h.session
  obtain rfl : u = t := by rw [hu] at hstep; cases hstep; rfl
  exact sound_of_frame h (internalStep_frame hstep) hsession

/-- The context after reset or CLRCTX, on a core that is no longer busy, is sound. -/
theorem sessionSound_of_context_reset {cfg : Config} {t : State} (hctx : t.ctx = Context.reset)
    (hbusy : t.status.busy = false) : SessionSound cfg t :=
  sessionSound_idle (by rw [hctx]; rfl) hbusy (by rw [hctx]; rfl) (by rw [hctx]; exact Nat.zero_le _)

/-- A dropped command or write, and an illegal access, set a sticky bit only. -/
theorem sound_of_sticky {s t : State} (h : s.Sound) (hmem : t.mem = s.mem) (hctx : t.ctx = s.ctx)
    (hstatus : t.status = { s.status with busyWr := t.status.busyWr, hostErr := t.status.hostErr }) : t.Sound := by
  refine ⟨by rw [hmem]; exact h.memory, ?_, h.session.congr hctx (by rw [hstatus])⟩
  rw [hstatus]
  exact h.status

theorem submitCommand_keeps_sound {w : Word} {s t : State} (h : s.Sound) (hstep : submitCommand w s = .next t) :
    t.Sound := by
  rcases submitCommand_cases hstep with
    ⟨-, rfl⟩ | ⟨hidle, hprim⟩ | ⟨hidle, md, rfl⟩ | ⟨hidle, -, rfl⟩ | ⟨-, rfl⟩
  · exact sound_of_sticky h rfl rfl rfl
  · exact ⟨hprim.memory h.memory, hprim.sound, h.session.congr hprim.ctx (by rw [hprim.busy, hidle])⟩
  · exact ⟨h.memory, accepted_busy_sound s.status, sessionSound_started rfl rfl rfl rfl rfl rfl (.inl rfl)⟩
  · exact ⟨h.memory, accepted_busy_sound s.status,
      sessionSound_started rfl rfl rfl rfl rfl rfl (.inr ⟨rfl, .inl ⟨rfl, rfl⟩⟩)⟩
  · split
    · rw [abort_eq]
      exact ⟨h.memory, ⟨(fun e => by cases e), some .aborted, rfl, rfl⟩, sessionSound_of_context_reset rfl rfl⟩
    · exact ⟨h.memory, completed_sound _ _ _, sessionSound_of_context_reset rfl rfl⟩

/-! ### Host accesses -/

@[simp] theorem storeLocation_status (s : State) (addr : HostAddr) (v : Word) :
    (s.storeLocation addr v).status = s.status := by
  unfold State.storeLocation
  split <;> rfl

/-- The host's byte goes into a buffer or leaves memory (10_state R33). -/
theorem storeLocation_wf {s : State} (h : s.mem.wf) (addr : HostAddr) (v : Word) : (s.storeLocation addr v).mem.wf := by
  have hl := located addr
  unfold State.storeLocation
  split
  case h_1 hbuf =>
    rw [hbuf] at hl
    cases hl with
    | buffer ha => exact write_wf h (by simpa [bufferEnd] using ha)
  all_goals exact h

theorem hostStore_keeps_sound {s : State} (h : s.Sound) (addr : HostAddr) (v : Word) : (s.hostStore addr v).Sound := by
  unfold State.hostStore
  split
  · exact sound_of_sticky h rfl rfl rfl
  · exact ⟨storeLocation_wf h.memory addr v, by rw [storeLocation_status]; exact h.status,
      h.session.congr (storeLocation_ctx s addr v) (by rw [storeLocation_status])⟩

theorem hostRead_keeps_sound {s : State} (h : s.Sound) (addr : HostAddr) (n : Nat) : (s.hostRead addr n).Sound := by
  unfold State.hostRead
  split <;> exact sound_of_sticky h rfl rfl rfl

theorem hostWrite_keeps_sound {addr : HostAddr} {n : Nat} {v : Word} {s t : State} (h : s.Sound)
    (hstep : hostWrite addr n v s = .next t) : t.Sound := by
  unfold hostWrite at hstep
  split at hstep
  case isFalse => cases hstep; exact sound_of_sticky h rfl rfl rfl
  case isTrue =>
    split at hstep
    case isTrue => exact submitCommand_keeps_sound h hstep
    case isFalse => cases hstep; exact hostStore_keeps_sound h addr v

theorem resetCore_sound (s : State) : s.resetCore.Sound :=
  ⟨empty_wf _, ⟨(fun e => by cases e), none, rfl, rfl⟩, sessionSound_of_context_reset rfl rfl⟩

theorem takeInput_keeps_sound {i : Input} {s t : State} (h : s.Sound) (hstep : takeInput i s = .next t) : t.Sound := by
  cases i with
  | hostRead addr n => cases hstep; exact hostRead_keeps_sound h addr n
  | hostWrite addr n v => exact hostWrite_keeps_sound h hstep
  | answer a => exact answerStep_keeps_sound h hstep
  | lateAnswer a => cases hstep; exact h
  | coreTurn => exact internalStep_keeps_sound h hstep
  | reset => cases hstep; exact resetCore_sound s

/-- The invariant does not look at the inputs. -/
theorem sound_with_inputs {s : State} (h : s.Sound) (is : List Input) : State.Sound { s with inputs := is } :=
  ⟨h.memory, h.status, h.session.congr rfl rfl⟩

/-! ### A sound core does not stop -/

theorem takeInput_next {i : Input} {s : State} (h : s.Sound) : ∃ t, takeInput i s = .next t := by
  cases i with
  | hostRead | lateAnswer | reset => exact ⟨_, rfl⟩
  | hostWrite addr n v =>
    change ∃ t, hostWrite addr n v s = .next t
    unfold hostWrite
    split
    · split
      · exact submitCommand_next v s
      · exact ⟨_, rfl⟩
    · exact ⟨_, rfl⟩
  | answer a =>
    obtain ⟨t, ht, -⟩ := answerStep_sound a h.session
    exact ⟨t, ht⟩
  | coreTurn =>
    obtain ⟨t, ht, -⟩ := internalStep_sound h.session
    exact ⟨t, ht⟩

/-! ### The sticky bits -/

/-- A sticky bit that was set is still set (10_state R28). -/
def KeepsSticky (s t : State) : Prop :=
  (s.status.busyWr = true → t.status.busyWr = true) ∧ (s.status.hostErr = true → t.status.hostErr = true)

theorem KeepsSticky.of_status {s t : State} (h : t.status = s.status) : KeepsSticky s t := by
  simp [KeepsSticky, h]

theorem keepsSticky_dropBusy (s : State) : KeepsSticky s s.dropBusy := ⟨fun _ => rfl, id⟩

theorem FsmFrame.keepsSticky {s t : State} (h : FsmFrame s t) : KeepsSticky s t := by
  obtain ⟨-, hbusyWr, hhostErr⟩ := h.stays
  simp [KeepsSticky, hbusyWr, hhostErr]

theorem submitCommand_keepsSticky {w : Word} {s t : State} (h : submitCommand w s = .next t) (hw : w ≠ 0x4C000000) :
    KeepsSticky s t := by
  rcases submitCommand_cases h with ⟨-, rfl⟩ | ⟨-, hprim⟩ | ⟨-, md, rfl⟩ | ⟨-, -, rfl⟩ | ⟨hclr, -⟩
  · exact keepsSticky_dropBusy s
  · simp [KeepsSticky, hprim.busyWr, hprim.hostErr]
  · exact ⟨id, id⟩
  · exact ⟨id, id⟩
  · exact absurd (word_of_decode_clrctx hclr) hw

theorem hostWrite_keepsSticky {addr : HostAddr} {n : Nat} {v : Word} {s t : State} (h : hostWrite addr n v s = .next t)
    (hclr : ¬ (addr = 0x1080 ∧ n = 4 ∧ v = 0x4C000000)) : KeepsSticky s t := by
  unfold hostWrite at h
  split at h
  case isFalse => cases h; exact ⟨id, fun _ => rfl⟩
  case isTrue hlegal =>
    split at h
    case isTrue haddr =>
      subst haddr
      exact submitCommand_keepsSticky h fun hv => hclr ⟨rfl, legalAccess_cmd_width hlegal, hv⟩
    case isFalse =>
      cases h
      unfold State.hostStore
      split
      · exact keepsSticky_dropBusy s
      · exact .of_status (storeLocation_status s addr v)

theorem takeInput_keepsSticky {i : Input} {s t : State} (h : takeInput i s = .next t) (hreset : i ≠ .reset)
    (hclr : i ≠ .hostWrite 0x1080 4 0x4C000000) : KeepsSticky s t := by
  cases i with
  | hostRead addr n =>
    cases h
    unfold State.hostRead
    split
    · exact .of_status rfl
    · exact ⟨id, fun _ => rfl⟩
  | hostWrite addr n v => exact hostWrite_keepsSticky h fun ⟨ha, hn, hv⟩ => hclr (by rw [ha, hn, hv])
  | answer a =>
    rcases answerStep_frame h with hf | ⟨-, -, -, d, -, hf⟩
    · exact hf.keepsSticky
    · exact hf.keepsSticky
  | lateAnswer a => cases h; exact .of_status rfl
  | coreTurn => exact (internalStep_frame h).keepsSticky
  | reset => exact absurd rfl hreset

/-! ### The obligations -/

/-- Settles O49: nothing is stored, nothing is reported, and the context is the reset one. -/
theorem resetStateIsSound : Obligations.ResetStateIsSound :=
  ⟨empty_wf 0, ⟨(fun e => by cases e), none, rfl, rfl⟩, sessionSound_of_context_reset rfl rfl⟩

/-- Settles O50: the core's own turn and each kind of input keep the invariant. -/
theorem everyStepKeepsTheInvariant : Obligations.EveryStepKeepsTheInvariant := by
  intro s t h hstep
  rcases step_cases s with ⟨-, he⟩ | ⟨i, rest, -, he⟩ <;> rw [he] at hstep
  · exact internalStep_keeps_sound h hstep
  · exact takeInput_keeps_sound (sound_with_inputs h rest) hstep

/-- Settles O51: the two faults need an unresolved variant in a state that uses it, or a session's end in the decryption
phase, and the invariant excludes both. -/
theorem soundStatesNeverStop : Obligations.SoundStatesNeverStop := by
  intro s h
  rcases step_cases s with ⟨-, he⟩ | ⟨i, rest, -, he⟩ <;> rw [he]
  · obtain ⟨t, ht, -⟩ := internalStep_sound h.session
    exact ⟨t, ht⟩
  · exact takeInput_next (sound_with_inputs h rest)

/-- Settles O55: commands but CLRCTX, host accesses and FSM steps set the sticky bits or leave them. -/
theorem stickyBitsStayUntilResetOrClrctx : Obligations.StickyBitsStayUntilResetOrClrctx := by
  intro s t hstep hreset hclr
  rcases step_cases s with ⟨-, he⟩ | ⟨i, rest, hin, he⟩ <;> rw [he] at hstep
  · exact (internalStep_frame hstep).keepsSticky
  · exact takeInput_keepsSticky (s := { s with inputs := rest }) hstep (fun e => hreset rest (e ▸ hin))
      fun e => hclr rest (e ▸ hin)

end Sys2Proof.Machine
end

section
/-! What an idle core's commands write and report, and the obligations on submission and on the commands that write an
operand register, KS or DK (30_encoding R93-R101, 40_bitstream R128, 41_blockcipher R146-R154, 42_keyderivation
R170-R176, 44_authentication R218-R226). -/

namespace Sys2Proof.Machine

/-! ### The shapes of completion -/

/-- A command that has left STATUS as its acceptance did reports its outcome alone (30_encoding R101, R107). -/
theorem complete_reports {s t : State} (h : t.status = s.status.accepted) (e : Option CoreError) (r : Byte) :
    Reports s (t.complete e r) e.isSome (outcomeCode e) r false := by
  rw [Reports, complete_status, h]
  rfl

theorem accept_complete_changesOnlyStatus (s : State) (e : Option CoreError) (r : Byte) :
    ChangesOnlyStatus s (s.accept.complete e r) := ⟨rfl, rfl, fun _ => rfl, rfl, rfl, rfl, rfl, rfl⟩

theorem writeBR_complete_writesOnlyBR (s : State) (rd : BrIndex) {b : Block} {f : Fin 5 → Byte}
    (hf : ∀ i, b.get i = f i) (e : Option CoreError) (r : Byte) : WritesOnlyBR s ((s.accept.writeBR rd b).complete e r) rd f := by
  have hread (q : BrIndex) : ((s.accept.writeBR rd b).complete e r).readBR q = if q = rd then b else s.readBR q :=
    readBR_writeBR s.accept rd q b
  refine ⟨fun i => ?_, fun q hq => ?_, rfl, fun _ => rfl, rfl, rfl, rfl, rfl, rfl⟩
  · rw [hread, if_pos rfl, hf]
  · rw [hread, if_neg hq]

theorem writeCR_complete_writesOnlyCR (s : State) (c : Fin 2) {x : Challenge} {f : Fin 10 → Byte}
    (hf : ∀ i, x.get i = f i) (e : Option CoreError) (r : Byte) :
    WritesOnlyCR s ((s.accept.writeCR c x).complete e r) c f := by
  have hread (d : Fin 2) : ((s.accept.writeCR c x).complete e r).readCR d = if d = c then x else s.readCR d :=
    readCR_writeCR s.accept c d x
  refine ⟨fun i => ?_, fun d hd => ?_, rfl, fun _ => rfl, rfl, rfl, rfl, rfl, rfl⟩
  · rw [hread, if_pos rfl, hf]
  · rw [hread, if_neg hd]

theorem store_complete_writesOnlyBytes (s : State) (base : Nat) {vs : List Byte} {n : Nat} {f : Nat → Byte}
    (hn : vs.length = n) (hf : ∀ k, k < n → vs.getD k 0 = f k) (e : Option CoreError) (r : Byte) :
    WritesOnlyBytes s ((s.accept.store base vs).complete e r) base n f := by
  subst hn
  refine ⟨fun k hk => ?_, fun a ha => ?_, rfl, rfl, rfl, rfl, rfl, rfl, rfl⟩
  · change (s.mem.write base vs).read (base + k) = f k
    rw [read_write_inside (by omega) (by omega), Nat.add_sub_cancel_left, hf k hk]
  · exact read_write_outside ha

/-- A command's meaning on an idle core: its rule, run on the accepted state (30_encoding R101). -/
theorem next_submit_idle {s : State} (hidle : s.status.busy = false) (rule : State → State) :
    (.next (s.submit rule) : Result) = .next (rule s.accept) := congrArg Host.Outcome.next (submit_idle hidle rule)

/-- With an operand in range, the rule runs on what the operand denotes (30_encoding R93, R94). -/
theorem next_submit_operand {α : Type} {s : State} (hidle : s.status.busy = false) {o : Option α} {x : α}
    (ho : o = some x) (rule : State → α → State) :
    (.next (s.submit fun s => s.withOperand o rule) : Result) = .next (rule s.accept x) := by
  rw [next_submit_idle hidle, ho, withOperand_some]

/-- An operand out of range makes the accepted command illegal (30_encoding R98). -/
theorem next_submit_operand_none {α : Type} {s : State} (hidle : s.status.busy = false) {o : Option α} (ho : o = none)
    (rule : State → α → State) :
    (.next (s.submit fun s => s.withOperand o rule) : Result) = .next s.accept.illegal := by
  rw [next_submit_idle hidle, ho, withOperand_none]

/-! ### Operand fields -/

theorem crIndex_of_toNat {f : CrField} {c : Fin 2} (h : f.toNat = c.val) : crIndex? f = some c := by
  revert f c; decide

theorem crIndex_eq_none {f : CrField} (h : CrField.ok f = false) : crIndex? f = none := by
  revert f; decide

theorem length_of_range {imm : Imm} (h1 : 1 ≤ imm.toNat) (h2 : imm.toNat ≤ 32) : length? imm = some imm.toNat :=
  if_pos ⟨h1, h2⟩

theorem length_eq_none {imm : Imm} (h : imm.isLength = false) : length? imm = none :=
  if_neg (by simpa [Imm.isLength] using h)

theorem diskKeyOffset_eq_none {imm : Imm} (h : imm.isDiskKeyOffset = false) : diskKeyOffset? imm = none :=
  if_neg (by simpa [Imm.isDiskKeyOffset] using h)

theorem mode_of_range {imm : Imm} (h : imm.toNat ≤ 1) :
    mode? imm = some (if imm.toNat = 0 then .disk else .title) := by
  rcases mode_isSome (imm := imm) (by simpa [Imm.isMode] using h) with ⟨hn, hm⟩ | ⟨hn, hm⟩ <;> simp [hn, hm]

theorem mode_eq_none {imm : Imm} (h : imm.isMode = false) : mode? imm = none := by
  have hgt : ¬ imm.toNat ≤ 1 := by simpa [Imm.isMode] using h
  unfold mode?
  split
  · omega
  · omega
  · rfl

/-! ### Submission -/

/-- A command whose operand is out of range, as a term, is the illegal command on the accepted state (log 12). -/
theorem exec_illFormed {i : Instr} {s : State} (hwf : i.wellFormed = false) (hidle : s.status.busy = false) :
    exec i s = .next s.accept.illegal := by
  cases i with
  | gen rs len => exact next_submit_operand_none hidle (length_eq_none hwf) _
  | bc | k1t | k2t | bkt | findv | initch | cat =>
    exact next_submit_operand_none hidle (crIndex_eq_none hwf) _
  | lddk rd off => exact next_submit_operand_none hidle (diskKeyOffset_eq_none hwf) _
  | auth mode => exact next_submit_operand_none hidle (mode_eq_none hwf) _
  | nop | mix | dtk | xdk | xbk | dscr | acq | descr | clrctx => cases hwf

/-- Settles O6: the rule that the operand field would select is never reached. -/
theorem illFormedCommandsAreIllegal : Obligations.IllFormedCommandsAreIllegal := by
  intro i s hwf hidle
  exact ⟨_, exec_illFormed hwf hidle, accept_complete_changesOnlyStatus s _ _, complete_reports rfl _ _⟩

/-- Settles O7: a word at CMD is a legal write, and its submission is the decoded command's meaning. -/
theorem stepRunsTheDecodedCommand : Obligations.StepRunsTheDecodedCommand := by
  intro s w rest i hin hdecode
  rw [step_input hin]
  change hostWrite cmdAddr 4 w { s with inputs := rest } = _
  rw [hostWrite_legal _ w legalAccess_cmd, if_pos rfl, submitCommand, hdecode]

/-- Settles O8: every arm but CLRCTX's is a `submit`, which drops the command. -/
theorem busyCoreDropsEveryOtherCommand : Obligations.BusyCoreDropsEveryOtherCommand := by
  intro i s hclr hbusy
  cases i with
  | clrctx => exact absurd rfl hclr
  | _ => exact congrArg Host.Outcome.next (submit_busy hbusy _)

/-! ### The commands that write STATUS, a register or KS -/

/-- Settles O9: NOP completes on the accepted state. -/
theorem nopOnlyCompletes : Obligations.NopOnlyCompletes := by
  intro s hidle
  exact ⟨_, next_submit_idle hidle _, accept_complete_changesOnlyStatus s _ _,
    complete_reports rfl none 0x00⟩

/-- Settles O10: the stored bytes are the generated list. -/
theorem genWritesTheKeystream : Obligations.GenWritesTheKeystream := by
  intro s rs len hidle hmin hmax
  exact ⟨_, next_submit_operand hidle (length_of_range hmin hmax) _,
    store_complete_writesOnlyBytes s ksBase (generate_length _ _) (fun _ _ => rfl) _ _, complete_reports rfl none 0x00⟩

/-- Settles O11: each command writes its transform of the challenge, and a gather is its permutation written out. -/
theorem cipherCommandsWriteTheirDestination : Obligations.CipherCommandsWriteTheirDestination := by
  intro s rd cs c var hidle hcs
  have hindex := crIndex_of_toNat hcs
  refine ⟨⟨_, next_submit_operand hidle hindex _, ?_, complete_reports rfl none 0x00⟩,
    ⟨_, next_submit_operand hidle hindex _, ?_, complete_reports rfl none 0x00⟩,
    ⟨_, next_submit_operand hidle hindex _, ?_, complete_reports rfl none 0x00⟩,
    ⟨_, next_submit_operand hidle hindex _, ?_, complete_reports rfl none 0x00⟩⟩
  all_goals exact writeBR_complete_writesOnlyBR s rd (fun _ => rfl) _ _

/-- FINDV reads its operands from the accepted state, which holds what the state held. -/
theorem exec_findv_idle {s : State} {cs : CrField} {c : Fin 2} (ra : BrIndex) (hidle : s.status.busy = false)
    (hcs : cs.toNat = c.val) :
    exec (.findv cs ra) s =
      .next (match resolveVariant Config.platform (s.readCR c) (s.readBR ra) with
        | none => s.accept.raise .variantResolutionFailure 0xFF
        | some v => s.accept.complete none (v.setWidth 8)) :=
  next_submit_operand hidle (crIndex_of_toNat hcs) _

/-- Settles O12: both answers of the resolution complete the accepted state. -/
theorem findvReportsTheResolvedVariant : Obligations.FindvReportsTheResolvedVariant := by
  intro s cs c ra hidle hcs
  rw [exec_findv_idle ra hidle hcs]
  cases resolveVariant Config.platform (s.readCR c) (s.readBR ra) with
  | none =>
    exact ⟨_, rfl, accept_complete_changesOnlyStatus s _ _,
      complete_reports rfl (some .variantResolutionFailure) 0xFF⟩
  | some v => exact ⟨_, rfl, accept_complete_changesOnlyStatus s _ _, complete_reports rfl none _⟩

/-- Settles O14: the written challenge is `initialChallenge`, built byte by byte. -/
theorem initchWritesTheInitialChallenge : Obligations.InitchWritesTheInitialChallenge := by
  intro s cd c hidle hcd
  exact ⟨_, next_submit_operand hidle (crIndex_of_toNat hcd) _,
    writeCR_complete_writesOnlyCR s c (Challenge.get_ofFn _) _ _, complete_reports rfl none 0x00⟩

/-- The bytes of two concatenated Blocks (00_scope R12). -/
theorem get_concatBlocks (a b : Block) (i : Fin 10) :
    (concatBlocks a b).get i = if h : i.val < 5 then a.get ⟨i.val, h⟩ else b.get ⟨i.val - 5, by omega⟩ := by
  fin_cases i <;> rfl

/-- Settles O15: the bytes of a concatenation are those of its two Blocks. -/
theorem catConcatenatesTwoBlocks : Obligations.CatConcatenatesTwoBlocks := by
  intro s cd c ra rb hidle hcd
  exact ⟨_, next_submit_operand hidle (crIndex_of_toNat hcd) _,
    writeCR_complete_writesOnlyCR s c (get_concatBlocks _ _) _ _, complete_reports rfl none 0x00⟩

/-- Settles O16: both operands are read from the accepted state. -/
theorem mixWritesTheMixedKey : Obligations.MixWritesTheMixedKey := by
  intro s rd rs inv hidle
  exact ⟨_, next_submit_idle hidle _,
    writeBR_complete_writesOnlyBR s rd (fun _ => rfl) _ _, complete_reports rfl none 0x00⟩

/-- Settles O17: the Block of five consecutive bytes of DK. -/
theorem lddkLoadsFiveDiskKeyBytes : Obligations.LddkLoadsFiveDiskKeyBytes := by
  intro s rd off hidle hoff
  exact ⟨_, next_submit_operand hidle (if_pos hoff) _,
    writeBR_complete_writesOnlyBR s rd (Block.get_ofBytesAt _ _) _ _, complete_reports rfl none 0x00⟩

/-- DTK reads DK and its operand from the accepted state, which holds what the state held. -/
theorem exec_dtk_idle {s : State} (rd rs : BrIndex) (hidle : s.status.busy = false) :
    exec (.dtk rd rs) s =
      .next (match decryptTitleKey Config.platform (fun i => s.mem.read (0x0800 + i)) (s.readBR rs) with
        | none => s.accept.raise .noMatchingPlayerKey 0xFF
        | some (tk, j) => (s.accept.writeBR rd tk).complete none (BitVec.ofNat 8 j.val)) :=
  next_submit_idle hidle _

/-- Settles O18: a confirmed key's title key is written, and without one the accepted state completes. -/
theorem dtkWritesTheTitleKeyOrFails : Obligations.DtkWritesTheTitleKeyOrFails := by
  intro s rd rs hidle
  rw [exec_dtk_idle rd rs hidle]
  rcases decryptTitleKey Config.platform (fun i => s.mem.read (0x0800 + i)) (s.readBR rs) with _ | ⟨tk, j⟩
  · exact ⟨_, rfl, accept_complete_changesOnlyStatus s _ _, complete_reports rfl (some .noMatchingPlayerKey) 0xFF⟩
  · exact ⟨_, rfl, writeBR_complete_writesOnlyBR s rd (fun _ => rfl) _ _, complete_reports rfl none _⟩

/-- Settles O21: the bytes of the XOR with the reversed Block. -/
theorem xbkXorsTheTitleKey : Obligations.XbkXorsTheTitleKey := by
  intro s rd rs hidle
  refine ⟨_, next_submit_idle hidle _,
    writeBR_complete_writesOnlyBR s rd (fun i => ?_) _ _, complete_reports rfl none 0x00⟩
  rw [xorTitleKey_eq, Block.get_ofFn]
  rfl

/-! ### Sessions started -/

/-- Settles O25: the accepted mode starts its session. -/
theorem authStartsASession : Obligations.AuthStartsASession := by
  intro s m hidle hm
  exact next_submit_operand hidle (mode_of_range hm) _

/-- Settles O26: ACQ's rule on the accepted state. -/
theorem acqStartsTheDiskKeySession : Obligations.AcqStartsTheDiskKeySession :=
  fun _ hidle => next_submit_idle hidle _

end Sys2Proof.Machine
end

section
/-! The bytes that the bus-key XOR and the descrambler write, and the obligations on XDK, DSCR, DESCR and the disk-key
fetch (42_keyderivation R175, 43_descrambler R187-R192, 44_authentication R214). -/

namespace Sys2Proof.Machine

/-! ### The bus-key XOR -/

/-- The key byte of the cyclic XOR is that of the reversed key at the index mod 5 (42_keyderivation R175). -/
theorem rev_get_eq_busKeyByte (bk : Block) (i : Nat) : bk.rev.get (Fin.ofNat 5 i) = busKeyByte bk i := by
  rw [Block.get_rev, busKeyByte]
  congr 1
  apply Fin.ext
  have hmod : i % 5 < 5 := Nat.mod_lt _ (by decide)
  simp only [Fin.sub_def, Fin.val_ofNat]
  change (5 - i % 5 + 4) % 5 = 4 - i % 5
  omega

theorem xorCyclic_getD_zero (bk : Block) {k : Nat} {vs : List Byte} (h : k < vs.length) :
    (xorCyclic bk 0 vs).getD k 0 = vs.getD k 0 ^^^ busKeyByte bk k := by
  rw [xorCyclic_getD bk 0 k vs h, Nat.zero_add, rev_get_eq_busKeyByte]

/-- XDK on an idle core: DK, XORed with the bus key, is written and nothing else (42_keyderivation R175). -/
theorem exec_xdk_idle {s : State} (rs : BrIndex) (hidle : s.status.busy = false) :
    ∃ t, exec (.xdk rs) s = .next t ∧
      WritesOnlyBytes s t 0x0800 2048 (fun i => s.mem.read (0x0800 + i) ^^^ busKeyByte (s.readBR rs) i) ∧
      Reports s t false 0x00 0x00 false := by
  refine ⟨_, next_submit_idle hidle _, store_complete_writesOnlyBytes s dkBase (by simp) (fun k hk => ?_) _ _,
    complete_reports rfl none 0x00⟩
  rw [xorCyclic_getD_zero _ (by simpa using hk), readRange_getD _ _ _ _ hk]
  rfl

/-- Settles O20: the second XDK has the same bus key, since the first one leaves BR, and XORs each byte of DK with it
once more. -/
theorem xdkXorsTheDiskKeyAndUndoesItself : Obligations.XdkXorsTheDiskKeyAndUndoesItself := by
  intro s rs hidle
  obtain ⟨t, ht, hwrites, hreports⟩ := exec_xdk_idle rs hidle
  obtain ⟨u, hu, hwrites', -⟩ := exec_xdk_idle (s := t) rs (by rw [hreports])
  refine ⟨t, ht, hwrites, hreports, u, hu, fun a => ?_⟩
  obtain ⟨hinside, houtside, hbr, -⟩ := hwrites
  obtain ⟨hinside', houtside', -⟩ := hwrites'
  have hkey : t.readBR rs = s.readBR rs := by rw [State.readBR, hbr, State.readBR]
  by_cases ha : a < 0x0800 ∨ 0x0800 + 2048 ≤ a
  · rw [houtside' a ha, houtside a ha]
  · obtain ⟨k, rfl⟩ : ∃ k, a = 0x0800 + k := ⟨a - 0x0800, by omega⟩
    have hk : k < 2048 := by omega
    calc u.mem.read (0x0800 + k)
        = t.mem.read (0x0800 + k) ^^^ busKeyByte (t.readBR rs) k := hinside' k hk
      _ = s.mem.read (0x0800 + k) ^^^ busKeyByte (s.readBR rs) k ^^^ busKeyByte (s.readBR rs) k := by
        rw [hinside k hk, hkey]
      _ = s.mem.read (0x0800 + k) := by rw [BitVec.xor_assoc, BitVec.xor_self, BitVec.xor_zero]

theorem pendingCall_fetch_disk {s : State} (hbusy : s.status.busy = true) (hfsm : s.ctx.fsm = .fetch)
    (hmode : s.ctx.mode = .disk) : pendingCall s = some (.readDiskKeyStructure s.ctx.sid) := by
  simp [pendingCall, hbusy, hfsm, hmode]

/-- Settles O32: the stored DK is the data under the cyclic XOR with KEYCHECK, and both answers are the call's. -/
theorem diskKeyFetchStep : Obligations.DiskKeyFetchStep := by
  intro s rest hbusy hfsm hmode
  have hcall := pendingCall_fetch_disk hbusy hfsm hmode
  refine ⟨fun d hin => ?data, fun hin => step_answer hin hcall (.inr rfl)⟩
  refine ⟨(s.storeDiskKey d).mem, rfl, fun i hi => ?_, fun a ha => storeDiskKey_read_outside s d ha,
    step_answer hin hcall (.inl ⟨d, rfl⟩)⟩
  have hlen : i < d.toList.length := by simpa using hi
  change (s.mem.write dkBase _).read (dkBase + i) = _
  rw [read_write_inside (by omega) (by rw [diskKey_length]; omega), Nat.add_sub_cancel_left, xorCyclic_getD_zero _ hlen]

/-! ### The descrambled bytes -/

/-- From byte `j` on, each byte is substituted and XORed with its key byte: the pair and the accumulator that
`descrambleBytes` passes on are `pairAfter` and `descrambleAcc` of the next index (43_descrambler R189). -/
theorem descrambleBytes_getD (cfg : Config) (p : LfsrPair) (j : Nat) {k : Nat} {vs : List Byte} (hk : k < vs.length) :
    (descrambleBytes cfg (pairAfter cfg p j) (descrambleAcc cfg p j) vs).getD k 0 =
      cfg.tab1 (vs.getD k 0) ^^^ descrambleKey cfg p (j + k) := by
  induction vs generalizing j k with
  | nil => simp at hk
  | cons v vs ih =>
    cases k with
    | zero => rfl
    | succ k =>
      have hnext := ih (j + 1) (k := k) (by simpa using hk)
      rw [show j + 1 + k = j + (k + 1) by omega] at hnext
      exact hnext

theorem saltedSeed_eq (s : State) (key : Block) (offset : Nat) :
    saltedSeed s.sec key offset = sectorSeed (fun i => s.mem.read i) key offset := by
  refine Block.ext_get fun i => ?_
  rw [saltedSeed, sectorSeed, Block.get_xor, Block.get_ofBytesAt, Block.get_ofFn, State.sec, secBase, Nat.zero_add]

/-- A descrambling writes the 1920 bytes from `0x80 - offset` on, each as R189 gives it, and its command completes. -/
theorem descramble_complete_writesOnlyBytes (s : State) (key : Block) (offset : Nat) (r : Byte) :
    WritesOnlyBytes s ((s.accept.descramble Config.platform key offset).complete none r) (0x80 - offset) 1920
      (descrambledByte Config.platform (fun i => s.mem.read i) key offset) := by
  rw [State.descramble, secBase, Nat.zero_add, saltedSeed_eq]
  refine store_complete_writesOnlyBytes s _ (by simp [descrambledLength]) (fun k hk => ?_) _ _
  have hlen : k < (s.mem.readRange (0x80 - offset) descrambledLength).length := by
    simpa [descrambledLength] using hk
  have hbyte := descrambleBytes_getD Config.platform (pairSeed (sectorSeed (fun i => s.mem.read i) key offset)) 0 hlen
  rw [readRange_getD _ _ _ _ (by simpa using hlen), Nat.zero_add] at hbyte
  exact hbyte

/-! ### DSCR and DESCR in the range -/

theorem not_offsetAnomaly {offset : Imm} (h : offset.toNat ≤ 0x54) : ¬ offsetAnomaly offset = true := by
  rw [offsetAnomaly_iff]
  omega

/-- Within the range the completion leaves ANOM 0, so marking it changes nothing (30_encoding R107). -/
theorem markAnomaly_of_range {s t : State} {err : Bool} {code r : Byte} (h : Reports s t err code r false)
    {offset : Imm} (hoff : offset.toNat ≤ 0x54) : t.markAnomaly offset = t := by
  have hno : offsetAnomaly offset = false := Bool.eq_false_iff.2 (not_offsetAnomaly hoff)
  have hanom : t.status.anom = false := by rw [h]
  rw [State.markAnomaly, hno, ← hanom]

/-- Settles O22: within the range DSCR descrambles with its register's key. -/
theorem dscrDescramblesTheSector : Obligations.DscrDescramblesTheSector := by
  intro s rs offset hidle hoff
  refine ⟨(s.accept.descramble Config.platform (s.readBR rs) offset.toNat).complete none 0x00, ?_,
    descramble_complete_writesOnlyBytes s _ _ _, complete_reports rfl none 0x00⟩
  change execDscr rs offset s = _
  rw [execDscr, next_submit_idle hidle, if_neg (not_offsetAnomaly hoff)]
  exact congrArg Host.Outcome.next (markAnomaly_of_range (complete_reports (s := s) rfl none 0x00) hoff)

/-- Settles O23: with ENC 0 DESCR completes and marks ANOM, and with ENC 1 it descrambles with TITLEKEY. -/
theorem descrDescramblesOnlyWhenEncrypted : Obligations.DescrDescramblesOnlyWhenEncrypted := by
  intro s offset hidle
  refine ⟨fun henc => ?off, fun henc hoff => ?on⟩
  case off =>
    refine ⟨(s.accept.complete none 0x00).markAnomaly offset, ?_, complete_markAnomaly_changesOnlyStatus s _ _ _,
      complete_markAnomaly_reports s none 0x00 offset⟩
    have hkeyless : (!s.accept.ctx.enc) = true := by simp [henc]
    change execDescr offset s = _
    rw [execDescr, next_submit_idle hidle, if_pos hkeyless]
  case on =>
    have hkeyed : ¬ (!s.accept.ctx.enc) = true := by simp [henc]
    refine ⟨(s.accept.descramble Config.platform s.ctx.titleKey offset.toNat).complete none 0x01, ?_,
      descramble_complete_writesOnlyBytes s _ _ _, complete_reports rfl none 0x01⟩
    change execDescr offset s = _
    rw [execDescr, next_submit_idle hidle, if_neg hkeyed, if_neg (not_offsetAnomaly hoff)]
    exact congrArg Host.Outcome.next (markAnomaly_of_range (complete_reports (s := s) rfl none 0x01) hoff)

end Sys2Proof.Machine
end

section
/-! The remaining steps of the FSM, the pending call, and runs of several steps, with their obligations
(44_authentication R201-R218, R221, R225). -/

namespace Sys2Proof.Machine

/-! ### Steps of REQ, RESV, RECVCH and BUSK -/

theorem pendingCall_req {s : State} (hbusy : s.status.busy = true) (hfsm : s.ctx.fsm = .req) :
    pendingCall s = some .openSession := by simp [pendingCall, hbusy, hfsm]

theorem pendingCall_recvch {s : State} (hbusy : s.status.busy = true) (hfsm : s.ctx.fsm = .recvch) :
    pendingCall s = some (.receiveChallenge s.ctx.sid) := by simp [pendingCall, hbusy, hfsm]

/-- The core of `s` after one more failed attempt, its call and its notification sent (44_authentication R206). -/
def State.afterGrantFail (s : State) (rest : List Input) : State :=
  { s with
    inputs := rest
    outputs := s.outputs ++ [.call .openSession, .invalidateSession s.ctx.sid]
    ctx := { s.ctx with attempts := s.ctx.attempts + 1 } }

/-- A step by `GrantFail` (44_authentication R206). -/
theorem step_grantFail {s : State} {rest : List Input} (hbusy : s.status.busy = true) (hfsm : s.ctx.fsm = .req)
    (hin : s.inputs = .answer .grantFail :: rest) :
    step s =
      if Config.platform.grantRetries.val + 1 ≤ (s.ctx.attempts + 1).toNat then
        (s.afterGrantFail rest).sessionEnd (some .sessionGrantFailure)
      else .next (s.afterGrantFail rest) := by
  have hcount : State.countGrantFailure { s with inputs := rest, outputs := s.outputs ++ [.call .openSession] } =
      s.afterGrantFail rest := by simp [State.countGrantFailure, State.afterGrantFail]
  have hreq : (s.afterGrantFail rest).toFsm .req = s.afterGrantFail rest := by
    rw [State.toFsm, ← show (s.afterGrantFail rest).ctx.fsm = .req from hfsm]
  rw [step_answer hin (pendingCall_req hbusy hfsm) (.inr (.inl rfl))]
  change State.grantFailed Config.platform _ = _
  rw [grantFailed_eq, hcount, hreq]
  rfl

/-- Settles O28: the three answers are `openSession`'s, and `GrantFail` is `step_grantFail`. -/
theorem requestAnswers : Obligations.RequestAnswers := by
  intro s rest hbusy hfsm
  have hcall := pendingCall_req hbusy hfsm
  exact ⟨fun hin => step_answer hin hcall (.inl rfl), fun hin => step_grantFail hbusy hfsm hin,
    fun v hin => step_answer hin hcall (.inr (.inr ⟨v, rfl⟩))⟩

theorem step_coreTurn {s : State} {rest : List Input} (hin : s.inputs = .coreTurn :: rest) :
    step s = internalStep Config.platform { s with inputs := rest } := step_input hin

theorem internalStep_resv (cfg : Config) {s : State} (hbusy : s.status.busy = true) (hfsm : s.ctx.fsm = .resv) :
    internalStep cfg s = s.resolveStep cfg := by simp [internalStep, hbusy, hfsm]

theorem internalStep_busk (cfg : Config) {s : State} (hbusy : s.status.busy = true) (hfsm : s.ctx.fsm = .busk) :
    internalStep cfg s = s.busKeyStep cfg := by simp [internalStep, hbusy, hfsm]

/-- Settles O30: the core's turn in RESV is `resolveStep`. -/
theorem resolveVariantStep : Obligations.ResolveVariantStep := by
  intro s rest hbusy hfsm hin
  have hstep : step s = State.resolveStep Config.platform { s with inputs := rest } :=
    (step_coreTurn hin).trans (internalStep_resv _ hbusy hfsm)
  rw [hstep, State.resolveStep]
  cases resolveVariant Config.platform s.ctx.chal s.ctx.key1 <;> rfl

/-- Settles O31: with a resolved variant neither step meets its fault. -/
theorem key2AndBusKeySteps : Obligations.Key2AndBusKeySteps := by
  intro s rest v hbusy hvar
  refine ⟨fun c hfsm hin => ?key2, fun hfsm hin => ?busKey⟩
  case key2 =>
    rw [step_answer hin (pendingCall_recvch hbusy hfsm) ⟨c, rfl⟩, State.answered, State.challengeReceived, hvar]
  case busKey =>
    have hstep : step s = State.busKeyStep Config.platform { s with inputs := rest } :=
      (step_coreTurn hin).trans (internalStep_busk _ hbusy hfsm)
    rw [hstep, State.busKeyStep, hvar]
    rfl

/-! ### The pending call -/

/-- The pending call reads BUSY, FSM, MODE and its arguments' registers only (44_authentication R204). -/
theorem pendingCall_congr {s t : State} (hbusy : t.status.busy = s.status.busy) (hfsm : t.ctx.fsm = s.ctx.fsm)
    (hsid : t.ctx.sid = s.ctx.sid) (hchal : t.ctx.chal = s.ctx.chal) (hkey2 : t.ctx.key2 = s.ctx.key2)
    (hmode : t.ctx.mode = s.ctx.mode) (hlba : t.lba = s.lba) : pendingCall t = pendingCall s := by
  rw [pendingCall, pendingCall, hbusy, hfsm, hsid, hchal, hkey2, hmode, hlba]

theorem pendingCall_congr_ctx {s t : State} (hbusy : t.status.busy = s.status.busy) (hctx : t.ctx = s.ctx)
    (hlba : t.lba = s.lba) : pendingCall t = pendingCall s :=
  pendingCall_congr hbusy (by rw [hctx]) (by rw [hctx]) (by rw [hctx]) (by rw [hctx]) (by rw [hctx]) hlba

theorem pendingCall_idle {s : State} (h : s.status.busy = false) : pendingCall s = none := by simp [pendingCall, h]

/-- The call states of 44_authentication R201. -/
theorem pendingCall_isSome_iff (s : State) : (pendingCall s).isSome = true ↔
    s.status.busy = true ∧ s.ctx.fsm ∈ [FsmState.req, .sendch, .recvk1, .recvch, .sendk2, .fetch] := by
  unfold pendingCall
  cases s.status.busy
  · simp
  · cases s.ctx.fsm with
    | fetch => cases s.ctx.mode <;> simp
    | _ => simp

@[simp] theorem hostRead_busy (s : State) (addr : HostAddr) (n : Nat) :
    (s.hostRead addr n).status.busy = s.status.busy := by
  unfold State.hostRead
  split <;> rfl

/-- A host write to a busy core that is not the abort sets a sticky bit and nothing else (20_memory R63, R67). -/
theorem hostWrite_busy_cases {s t : State} {addr : HostAddr} {n : Nat} {v : Word} (hbusy : s.status.busy = true)
    (hclr : ¬ (addr = 0x1080 ∧ n = 4 ∧ v = 0x4C000000)) (h : hostWrite addr n v s = .next t) :
    t = s.dropBusy ∨ t = s.hostError := by
  by_cases hlegal : legalAccess addr n = true
  · have hword : addr = cmdAddr → v ≠ 0x4C000000 := by
      rintro rfl rfl
      exact hclr ⟨rfl, legalAccess_cmd_width hlegal, rfl⟩
    rw [hostWrite_busy ((legalAccess_iff addr n).1 hlegal) hbusy hword] at h
    cases h
    exact .inl rfl
  · rw [hostWrite, if_neg hlegal] at h
    cases h
    exact .inr rfl

/-- CLRCTX leaves the core idle, with no call pending (44_authentication R225). -/
theorem exec_clrctx_pendingCall {s t : State} (h : exec .clrctx s = .next t) : pendingCall t = none := by
  refine pendingCall_idle ?_
  cases hbusy : s.status.busy
  · rw [exec_clrctx_idle hbusy] at h
    cases h
    rfl
  · rw [exec_clrctx_busy hbusy, abort_eq] at h
    cases h
    rfl

/-- An answer that is none of the pending call's is discarded (log 10). -/
theorem answerStep_of_not_answersCall (cfg : Config) {s : State} {a : Answer}
    (h : ∀ c, pendingCall s = some c → ¬ AnswersCall c a) : answerStep cfg a s = .next s := by
  rcases answerStep_cases cfg a s with he | ⟨c, hcall, ha, -⟩
  · exact he
  · exact absurd ((answers_iff c a).1 ha) (h c hcall)

/-- Settles O36: the call reads the registers alone; host accesses but the abort leave those registers, and the abort
leaves the core idle. -/
theorem pendingCallIsFixedByTheRegisters : Obligations.PendingCallIsFixedByTheRegisters := by
  refine ⟨fun s hbusy => ⟨pendingCall_req hbusy, pendingCall_sendch hbusy, pendingCall_recvk1 hbusy,
      pendingCall_recvch hbusy, pendingCall_sendk2 hbusy, pendingCall_fetch_disk hbusy,
      pendingCall_fetch_title hbusy⟩,
    pendingCall_isSome_iff, fun s t => pendingCall_congr, ?read, ?write, ?abort, ?late, ?wrong⟩
  case read =>
    intro s t a n rest hin h
    rw [step_input hin] at h
    cases h
    exact pendingCall_congr_ctx (hostRead_busy _ a n) (hostRead_ctx _ a n) (hostRead_lba _ a n)
  case write =>
    intro s t a n v rest hin hbusy hclr h
    rw [step_input hin] at h
    rcases hostWrite_busy_cases (s := { s with inputs := rest }) hbusy hclr h with rfl | rfl <;> rfl
  case abort =>
    intro s t rest hin h
    rw [stepRunsTheDecodedCommand s _ rest .clrctx hin rfl] at h
    exact exec_clrctx_pendingCall h
  case late =>
    intro s a rest hin
    rw [step_input hin]
    rfl
  case wrong =>
    intro s a rest hin hnone
    rw [step_input hin]
    exact answerStep_of_not_answersCall Config.platform (s := { s with inputs := rest }) hnone

/-! ### Runs -/

theorem runSteps_add {s t : State} {j : Nat} (k : Nat) (h : runSteps j s = .next t) :
    runSteps (j + k) s = runSteps k t := by
  induction j generalizing s with
  | zero =>
    cases h
    rw [Nat.zero_add]
  | succ j ih =>
    rcases hstep : step s with u | f | r
    · rw [runSteps_succ j hstep] at h
      rw [Nat.succ_add, runSteps_succ (j + k) hstep, ih h]
    all_goals
      rw [runSteps, hstep] at h
      cases h

/-! ### A title-key session in which every step succeeds

Each leg goes step by step from the state the step before it leaves. A hypothesis about that state is given as
`by exact`, which waits until the goal has named the state. -/

/-- The grant, the host's challenge and key1: REQ to RESV in three steps (44_authentication R206-R208). -/
theorem run_req_to_resv {s : State} {sid : Word} {k1 : Block} {rest : List Input} (hbusy : s.status.busy = true)
    (hfsm : s.ctx.fsm = .req)
    (hin : s.inputs = .answer (.sid sid) :: .answer .ack :: .answer (.block k1) :: rest) :
    runSteps 3 s = .next { s with
      inputs := rest
      outputs := s.outputs ++
        [.call .openSession, .call (.sendChallenge sid initialChallenge), .call (.receiveKey1 sid)]
      ctx := { s.ctx with sid := sid, chal := initialChallenge, key1 := k1, fsm := .resv } } := by
  refine (runSteps_succ 2 (step_answer hin (pendingCall_req hbusy hfsm) (.inr (.inr ⟨sid, rfl⟩)))).trans ?_
  refine (runSteps_succ 1 (step_answer rfl (pendingCall_sendch (by exact hbusy) rfl) rfl)).trans ?_
  refine (runSteps_succ 0 (step_answer rfl (pendingCall_recvk1 (by exact hbusy) rfl) ⟨k1, rfl⟩)).trans ?_
  simp [State.granted, State.toFsm, State.key1Received]

/-- The variant, the drive's challenge and key2: RESV to BUSK in three steps (44_authentication R209-R211). -/
theorem run_resv_to_busk {s : State} {c : Challenge} {v : Variant} {rest : List Input} (hbusy : s.status.busy = true)
    (hfsm : s.ctx.fsm = .resv) (hv : resolveVariant Config.platform s.ctx.chal s.ctx.key1 = some v)
    (hin : s.inputs = .coreTurn :: .answer (.challenge c) :: .answer .ok :: rest) :
    runSteps 3 s = .next { s with
      inputs := rest
      outputs := s.outputs ++
        [.call (.receiveChallenge s.ctx.sid), .call (.sendKey2 s.ctx.sid (key2Transform Config.platform v c))]
      ctx := { s.ctx with
        variant := some v, dchal := c, key2 := key2Transform Config.platform v c, fsm := .busk } } := by
  have hresolve := resolveVariantStep s _ hbusy hfsm hin
  rw [hv] at hresolve
  refine (runSteps_succ 2 hresolve).trans ?_
  refine (runSteps_succ 1 (step_answer rfl (pendingCall_recvch (by exact hbusy) rfl) ⟨c, rfl⟩)).trans ?_
  refine (runSteps_succ 0 (step_answer rfl (pendingCall_sendk2 (by exact hbusy) rfl) (.inl rfl))).trans ?_
  simp [State.toFsm]

/-- A title-key fetch's data ends an AUTH in success (44_authentication R215, R216). -/
theorem step_titleData_auth {s : State} {d : Block} {rest : List Input} (hbusy : s.status.busy = true)
    (hfsm : s.ctx.fsm = .fetch) (hmode : s.ctx.mode = .title) (hphase : s.ctx.acqPhase = .inactive)
    (hin : s.inputs = .answer (.titleData d) :: rest) :
    step s = .next (State.completeSession
      { s with
        inputs := rest, outputs := s.outputs ++ [.call (.readTitleKeyStructure s.ctx.sid s.lba)]
        ctx := { s.ctx with etk := Block.ofFn fun i => d.get i ^^^ s.ctx.keycheck.get (4 - i) } }
      none (variantByte s.ctx.variant)) := by
  obtain ⟨hdata, -⟩ := titleKeyFetchStep s rest hbusy hfsm hmode
  rw [hdata d hin]
  exact sessionEnd_inactive (by exact hphase) none

/-- The bus key and the title key: BUSK to the end of an AUTH in two steps (44_authentication R212, R215, R216). -/
theorem run_busk_to_end {s : State} {d : Block} {v : Variant} {rest : List Input} (hbusy : s.status.busy = true)
    (hfsm : s.ctx.fsm = .busk) (hmode : s.ctx.mode = .title) (hphase : s.ctx.acqPhase = .inactive)
    (hv : s.ctx.variant = some v) (hin : s.inputs = .coreTurn :: .answer (.titleData d) :: rest) :
    let busKey := busKeyTransform Config.platform v ⟨s.ctx.key1, s.ctx.key2⟩
    runSteps 2 s = .next { s with
      inputs := rest
      outputs := s.outputs ++ [.call (.readTitleKeyStructure s.ctx.sid s.lba)]
      status := { s.status with busy := false, done := true, err := false, errCode := 0x00, result := v.setWidth 8 }
      ctx := { s.ctx with
        keycheck := busKey, etk := Block.ofFn fun i => d.get i ^^^ busKey.get (4 - i), fsm := .idle } } := by
  obtain ⟨-, hbusk⟩ := key2AndBusKeySteps s _ v hbusy hv
  refine (runSteps_succ 1 (hbusk hfsm hin)).trans ?_
  refine (runSteps_succ 0
    (step_titleData_auth (by exact hbusy) (by exact rfl) (by exact hmode) (by exact hphase) rfl)).trans ?_
  simp [State.completeSession, State.complete, Status.completed, hv, outcomeCode, variantByte]

/-- Settles O37: the three legs of the session, one after the other. -/
theorem titleSessionRunsToCompletion : Obligations.TitleSessionRunsToCompletion := by
  intro s sid k1 d c v rest hbusy hfsm hmode hphase hin hv
  dsimp only
  refine (runSteps_add 5 (run_req_to_resv hbusy hfsm hin)).trans ?_
  refine (runSteps_add 2 (run_resv_to_busk (by exact hbusy) (by exact rfl) (by exact hv) rfl)).trans ?_
  refine (run_busk_to_end (by exact hbusy) (by exact rfl) (by exact hmode) (by exact hphase) (by exact rfl)
    rfl).trans ?_
  simp

/-! ### Grant failures up to the budget -/

/-- The core of `s` after the first `n` attempts of a session, all failed (44_authentication R206). -/
def State.afterGrantFails (s : State) (n : Nat) (rest : List Input) : State :=
  { s with
    inputs := rest
    outputs := s.outputs ++ (List.replicate n [Output.call .openSession, .invalidateSession s.ctx.sid]).flatten
    ctx := { s.ctx with attempts := BitVec.ofNat 8 n } }

theorem afterGrantFails_zero {s : State} (hatt : s.ctx.attempts = 0) : s.afterGrantFails 0 s.inputs = s := by
  rw [State.afterGrantFails, ← show s.ctx.attempts = BitVec.ofNat 8 0 from hatt]
  simp

theorem afterGrantFails_succ (s : State) (n : Nat) (is rest : List Input) :
    (s.afterGrantFails n is).afterGrantFail rest = s.afterGrantFails (n + 1) rest := by
  simp [State.afterGrantFail, State.afterGrantFails, List.replicate_succ', BitVec.ofNat_add]

/-- The next failure after `n` of them is the last one exactly if the configured retries are used up. -/
theorem step_afterGrantFails {s : State} {n : Nat} (rest : List Input) (hbusy : s.status.busy = true)
    (hfsm : s.ctx.fsm = .req) (hn : n ≤ Config.platform.grantRetries.val) :
    step (s.afterGrantFails n (.answer .grantFail :: rest)) =
      if n = Config.platform.grantRetries.val then
        (s.afterGrantFails (n + 1) rest).sessionEnd (some .sessionGrantFailure)
      else .next (s.afterGrantFails (n + 1) rest) := by
  have hmax : Config.platform.grantRetries.val < 255 := Config.platform.grantRetries.isLt
  have hatt : (BitVec.ofNat 8 n + 1).toNat = n + 1 := by
    simp [BitVec.toNat_add]
    omega
  have hlast : (Config.platform.grantRetries.val + 1 ≤ n + 1) = (n = Config.platform.grantRetries.val) :=
    propext (by omega)
  rw [step_grantFail (s := s.afterGrantFails n _) hbusy hfsm rfl, afterGrantFails_succ]
  change (if _ ≤ (BitVec.ofNat 8 n + 1).toNat then _ else _) = _
  simp only [hatt, hlast]

/-- Failures within the budget leave the session in REQ (44_authentication R206). -/
theorem run_grantFails {s : State} {n : Nat} {rest : List Input} (hbusy : s.status.busy = true)
    (hfsm : s.ctx.fsm = .req) (hatt : s.ctx.attempts = 0) (hn : n ≤ Config.platform.grantRetries.val)
    (hin : s.inputs = List.replicate n (.answer .grantFail) ++ rest) :
    runSteps n s = .next (s.afterGrantFails n rest) := by
  induction n generalizing rest with
  | zero =>
    obtain rfl : s.inputs = rest := hin
    rw [runSteps_zero, afterGrantFails_zero hatt]
  | succ n ih =>
    rw [List.replicate_succ', List.append_assoc] at hin
    have hstep := step_afterGrantFails rest hbusy hfsm (n := n) (by omega)
    rw [if_neg (by omega)] at hstep
    rw [runSteps_add 1 (ih (by omega) hin)]
    exact runSteps_succ 0 hstep

/-- Settles O38: all failures but the last stay within the budget, and the last exhausts it. -/
theorem grantFailuresExhaustTheBudget : Obligations.GrantFailuresExhaustTheBudget := by
  intro s rest hbusy hfsm hphase hatt max hin
  rw [List.replicate_succ', List.append_assoc] at hin
  have hlast := step_afterGrantFails rest hbusy hfsm (Nat.le_refl _)
  rw [if_pos rfl, sessionEnd_inactive (s := s.afterGrantFails _ rest) hphase] at hlast
  rw [runSteps_add 1 (run_grantFails hbusy hfsm hatt (Nat.le_refl _) hin)]
  exact runSteps_succ 0 hlast

/-! ### ACQ without a channel -/

/-- `NoChannel` in ACQ's disk-key session is its end as Unencrypted (44_authentication R216, R232). -/
theorem step_noChannel_diskSession {s : State} {rest : List Input} (hbusy : s.status.busy = true)
    (hfsm : s.ctx.fsm = .req) (hphase : s.ctx.acqPhase = .diskSession) (hin : s.inputs = .answer .noChannel :: rest) :
    step s = .next (State.acqEnd
      { s with inputs := rest, outputs := s.outputs ++ [.call .openSession] } none 0x00) := by
  obtain ⟨hnoChannel, -⟩ := requestAnswers s rest hbusy hfsm
  rw [hnoChannel hin]
  exact sessionEnd_diskSession (by exact hphase) _

/-- Settles O39: ACQ's acceptance, and then REQ's answer `NoChannel` in its disk-key session. -/
theorem noChannelMeansUnencrypted : Obligations.NoChannelMeansUnencrypted := by
  intro s rest hidle hin
  have hacq := (stepRunsTheDecodedCommand s _ _ .acq hin rfl).trans (acqStartsTheDiskKeySession _ hidle)
  refine (runSteps_succ 1 hacq).trans ?_
  exact runSteps_succ 0 (step_noChannel_diskSession rfl rfl rfl rfl)

end Sys2Proof.Machine
end

section
/-! What the host reads, and the obligations on host accesses, the STATUS word, reset and the context's writers
(10_state R27-R33, R40; 20_memory R62-R66, R73; 70_reset_and_hazards R271, R272). -/

namespace Sys2Proof.Machine

/-! ### Legal and illegal accesses -/

/-- Settles O40: `legalAccess_iff`, which goes through what stands at each address. -/
theorem legalAccessesAreThoseOfTheMap : Obligations.LegalAccessesAreThoseOfTheMap := legalAccess_iff

/-- Settles O41: both accesses take their illegal branch. -/
theorem illegalAccessesOnlySetHosterr : Obligations.IllegalAccessesOnlySetHosterr := by
  intro s a n v rest hillegal
  have hno : ¬ legalAccess a n = true := fun h => hillegal ((legalAccess_iff a n).1 h)
  refine ⟨fun hin => ?read, fun hin => ?write⟩
  case read =>
    rw [step_input hin]
    change Host.Outcome.next (State.hostRead _ a n) = _
    rw [State.hostRead, if_neg hno]
    rfl
  case write =>
    rw [step_input hin]
    change hostWrite a n v _ = _
    rw [hostWrite, if_neg hno]
    rfl

/-! ### The address map, from the register to its address -/

theorem locate_buffer {a : HostAddr} (h : a.toNat < 0x1020) : locate a = .buffer := if_pos h

theorem locate_br : ∀ (r : BrIndex) (i : Fin 5), locate (BitVec.ofNat 16 (0x1020 + 8 * r.toNat + i.val)) = .br r i := by
  decide

theorem locate_cr : ∀ (c : Fin 2) (i : Fin 10), locate (BitVec.ofNat 16 (0x1060 + 16 * c.val + i.val)) = .cr c i := by
  decide

theorem locate_chal : ∀ i : Fin 10, locate (BitVec.ofNat 16 (0x10A0 + i.val)) = .context (.chal i) := by decide
theorem locate_dchal : ∀ i : Fin 10, locate (BitVec.ofNat 16 (0x10B0 + i.val)) = .context (.dchal i) := by decide
theorem locate_key1 : ∀ i : Fin 5, locate (BitVec.ofNat 16 (0x10C0 + i.val)) = .context (.key1 i) := by decide
theorem locate_key2 : ∀ i : Fin 5, locate (BitVec.ofNat 16 (0x10C8 + i.val)) = .context (.key2 i) := by decide
theorem locate_keycheck : ∀ i : Fin 5, locate (BitVec.ofNat 16 (0x10D0 + i.val)) = .context (.keycheck i) := by decide
theorem locate_etk : ∀ i : Fin 5, locate (BitVec.ofNat 16 (0x10D8 + i.val)) = .context (.etk i) := by decide
theorem locate_titleKey : ∀ i : Fin 5, locate (BitVec.ofNat 16 (0x10E0 + i.val)) = .context (.titleKey i) := by decide

/-! ### What a read gives, by what stands at the address -/

theorem readLocation_buffer (s : State) {a : HostAddr} (h : locate a = .buffer) :
    readLocation s a = (s.mem.read a.toNat).setWidth 32 := by rw [readLocation, h]

theorem readLocation_br (s : State) {a : HostAddr} {r : BrIndex} {i : Fin 5} (h : locate a = .br r i) :
    readLocation s a = ((s.readBR r).get i).setWidth 32 := by rw [readLocation, h]

theorem readLocation_cr (s : State) {a : HostAddr} {c : Fin 2} {i : Fin 10} (h : locate a = .cr c i) :
    readLocation s a = ((s.readCR c).get i).setWidth 32 := by rw [readLocation, h]

theorem readLocation_context (s : State) {a : HostAddr} {b : ContextByte} (h : locate a = .context b) :
    readLocation s a = (readContext s.ctx b).setWidth 32 := by rw [readLocation, h]

theorem readsFollowTheMap (s : State) : ReadsFollowTheMap s := by
  refine ⟨fun a ha => ?buffer, fun r i => readLocation_br s (locate_br r i),
    fun c i => readLocation_cr s (locate_cr c i),
    fun i => ⟨readLocation_context s (locate_chal i), readLocation_context s (locate_dchal i)⟩,
    fun i => ⟨readLocation_context s (locate_key1 i), readLocation_context s (locate_key2 i),
      readLocation_context s (locate_keycheck i), readLocation_context s (locate_etk i),
      readLocation_context s (locate_titleKey i)⟩, rfl, rfl, rfl, rfl, rfl⟩
  case buffer =>
    have hnat : (BitVec.ofNat 16 a).toNat = a := by
      rw [BitVec.toNat_ofNat]
      omega
    rw [ReadsByte, readLocation_buffer s (locate_buffer (by rw [hnat]; exact ha)), hnat]

/-! ### A write is what a read there returns, and no other address reads differently -/

/-- A place the host can write holds a buffer byte, an operand byte or LBA (10_state R33). -/
theorem Located.of_writable {a n : Nat} {l : Location} (hl : Located a l) (h : WritablePlace a n) :
    (n = 1 ∧ (l = .buffer ∨ (∃ r i, l = .br r i) ∨ ∃ c i, l = .cr c i)) ∨ (n = 4 ∧ l = .word .lba) := by
  unfold WritablePlace at h
  cases hl with
  | buffer => exact .inl ⟨by omega, .inl rfl⟩
  | br r i => exact .inl ⟨by omega, .inr (.inl ⟨r, i, rfl⟩)⟩
  | cr c i => exact .inl ⟨by omega, .inr (.inr ⟨c, i, rfl⟩)⟩
  | context b hb =>
    have := b.address_range
    omega
  | word w hw =>
    cases w with
    | lba => exact .inr ⟨by simp only [WordRegister.address] at hw; omega, rfl⟩
    | cmd | status | sid => simp only [WordRegister.address] at hw; omega
  | insideWord w h1 h2 => cases w <;> simp only [WordRegister.address] at h1 h2 <;> omega
  | reserved hr =>
    rcases h with ⟨-, -, hno⟩ | ⟨-, rfl⟩
    · exact absurd hr hno
    · exact absurd hr (WordRegister.address_not_reserved .lba)

theorem WritablePlace.legalAccess {a n : Nat} (h : WritablePlace a n) : LegalAccess a n := by
  unfold WritablePlace at h
  unfold LegalAccess ByteRegion WordRegisterAddress
  omega

theorem WritablePlace.ne_cmdAddr {a : HostAddr} {n : Nat} (h : WritablePlace a.toNat n) : a ≠ cmdAddr := by
  rintro rfl
  simp [WritablePlace, cmdAddr] at h

/-- One byte of an operand register, and LBA, stand at one address only. -/
theorem Located.unique {a b : Nat} {l : Location} (ha : Located a l) (hb : Located b l)
    (hl : (∃ r i, l = .br r i) ∨ (∃ c i, l = .cr c i) ∨ l = .word .lba) : a = b := by
  rcases hl with ⟨r, i, rfl⟩ | ⟨c, i, rfl⟩ | rfl
  · cases ha with
    | br _ _ ha => cases hb with
      | br _ _ hb => rw [ha, hb]
  · cases ha with
    | cr _ _ ha => cases hb with
      | cr _ _ hb => rw [ha, hb]
  · cases ha with
    | word _ ha => cases hb with
      | word _ hb => rw [ha, hb]

theorem locate_ne_of_ne {a b : HostAddr} {l : Location} (ha : locate a = l) (hne : b ≠ a)
    (hl : (∃ r i, l = .br r i) ∨ (∃ c i, l = .cr c i) ∨ l = .word .lba) : locate b ≠ l := by
  intro hb
  exact hne (BitVec.eq_of_toNat_eq ((hb ▸ located b).unique (ha ▸ located a) hl))

/-- A byte written to a buffer (20_memory R73). -/
theorem readLocation_store (s : State) {a b : HostAddr} (v : Byte) (ha : locate a = .buffer) :
    readLocation (s.store a.toNat [v]) b = if b = a then v.setWidth 32 else readLocation s b := by
  by_cases hb : b = a
  · subst hb
    rw [if_pos rfl, readLocation_buffer _ ha, store_mem, read_write_inside (Nat.le_refl _) (by simp)]
    simp
  · rw [if_neg hb, readLocation, readLocation]
    cases locate b with
    | buffer =>
      have hne : b.toNat ≠ a.toNat := fun e => hb (BitVec.eq_of_toNat_eq e)
      have hout : b.toNat < a.toNat ∨ a.toNat + 1 ≤ b.toNat := by omega
      dsimp only
      rw [store_mem, read_write_outside hout]
    | _ => rfl

/-- A byte written to `BR[r][i]`. -/
theorem readLocation_writeBR (s : State) {a b : HostAddr} {r : BrIndex} {i : Fin 5} (v : Byte)
    (ha : locate a = .br r i) :
    readLocation (s.writeBR r ((s.readBR r).set i v)) b = if b = a then v.setWidth 32 else readLocation s b := by
  by_cases hb : b = a
  · subst hb
    rw [if_pos rfl, readLocation_br _ ha, readBR_writeBR, if_pos rfl, Block.get_set, if_pos rfl]
  · have hloc := locate_ne_of_ne ha hb (.inl ⟨r, i, rfl⟩)
    rw [if_neg hb, readLocation, readLocation]
    cases hlb : locate b with
    | br q j =>
      dsimp only
      rw [readBR_writeBR]
      split
      case isFalse => rfl
      case isTrue hq =>
        subst hq
        rw [Block.get_set, if_neg fun hj => hloc (by rw [hlb, hj])]
    | _ => rfl

/-- A byte written to `CR[c][i]`. -/
theorem readLocation_writeCR (s : State) {a b : HostAddr} {c : Fin 2} {i : Fin 10} (v : Byte)
    (ha : locate a = .cr c i) :
    readLocation (s.writeCR c ((s.readCR c).set i v)) b = if b = a then v.setWidth 32 else readLocation s b := by
  by_cases hb : b = a
  · subst hb
    rw [if_pos rfl, readLocation_cr _ ha, readCR_writeCR, if_pos rfl, Challenge.get_set, if_pos rfl]
  · have hloc := locate_ne_of_ne ha hb (.inr (.inl ⟨c, i, rfl⟩))
    rw [if_neg hb, readLocation, readLocation]
    cases hlb : locate b with
    | cr d j =>
      dsimp only
      rw [readCR_writeCR]
      split
      case isFalse => rfl
      case isTrue hd =>
        subst hd
        rw [Challenge.get_set, if_neg fun hj => hloc (by rw [hlb, hj])]
    | _ => rfl

/-- A word written to LBA. -/
theorem readLocation_writeLba (s : State) {a b : HostAddr} (v : Word) (ha : locate a = .word .lba) :
    readLocation { s with lba := v } b = if b = a then v else readLocation s b := by
  by_cases hb : b = a
  · subst hb
    rw [if_pos rfl, readLocation, ha]
    rfl
  · have hloc := locate_ne_of_ne ha hb (.inr (.inr rfl))
    rw [if_neg hb, readLocation, readLocation]
    cases hlb : locate b with
    | word w =>
      cases w with
      | lba => exact absurd hlb hloc
      | cmd | status | sid => rfl
    | _ => rfl

/-- A write to a writable place is what a read there then gives, and every other read is as it was (20_memory R73). -/
theorem readLocation_storeLocation (s : State) {a : HostAddr} {n : Nat} (v : Word) (h : WritablePlace a.toNat n)
    (b : HostAddr) :
    readLocation (s.storeLocation a v) b = if b = a then storedValue n v else readLocation s b := by
  rcases (located a).of_writable h with ⟨rfl, hl | ⟨r, i, hl⟩ | ⟨c, i, hl⟩⟩ | ⟨rfl, hl⟩ <;>
    rw [State.storeLocation, hl]
  · exact readLocation_store s _ hl
  · exact readLocation_writeBR s _ hl
  · exact readLocation_writeCR s _ hl
  · exact readLocation_writeLba s v hl

@[simp] theorem storeLocation_inputs (s : State) (addr : HostAddr) (v : Word) :
    (s.storeLocation addr v).inputs = s.inputs := by
  unfold State.storeLocation
  split <;> rfl

@[simp] theorem storeLocation_outputs (s : State) (addr : HostAddr) (v : Word) :
    (s.storeLocation addr v).outputs = s.outputs := by
  unfold State.storeLocation
  split <;> rfl

/-- Settles O44: a legal read sends `readLocation`, which follows the map, and a write to a writable place is
`storeLocation`. -/
theorem hostWritesReadBack : Obligations.HostWritesReadBack := by
  refine ⟨fun s a n rest hlegal hin => step_hostRead_legal hlegal hin, readsFollowTheMap, ?write⟩
  intro s a n v rest hidle hplace hin
  have hstep : step s = .next (State.storeLocation { s with inputs := rest } a v) := by
    rw [step_input hin]
    change hostWrite a n v _ = _
    rw [hostWrite_legal _ v hplace.legalAccess, if_neg hplace.ne_cmdAddr]
    exact congrArg Host.Outcome.next (hostStore_idle (s := { s with inputs := rest }) hidle a v)
  have hread := readLocation_storeLocation { s with inputs := rest } v hplace
  refine ⟨_, hstep, (hread a).trans (if_pos rfl), fun b hb => (hread b).trans (if_neg hb), ?_, ?_, ?_, ?_⟩
  · rw [storeLocation_status]
  · rw [storeLocation_ctx]
  · rw [storeLocation_inputs]
  · rw [storeLocation_outputs]

/-! ### STATUS, VARIANT, FSM and FLAGS bit by bit -/

theorem statusWord_bits (s : State) :
    (statusWord s).getLsbD 0 = s.status.busy ∧ (statusWord s).getLsbD 1 = s.status.done ∧
      (statusWord s).getLsbD 2 = s.status.err ∧ (statusWord s).getLsbD 3 = s.status.anom ∧
      (statusWord s).getLsbD 4 = s.status.busyWr ∧ (statusWord s).getLsbD 5 = s.status.hostErr ∧
      (statusWord s).getLsbD 7 = false := by
  simp only [statusWord, BitVec.getLsbD_append]
  simp

theorem statusWord_fields (s : State) :
    (statusWord s).extractLsb' 8 8 = s.status.errCode ∧ (statusWord s).extractLsb' 16 8 = s.status.result ∧
      (statusWord s).extractLsb' 24 4 = fsmCode s.ctx.fsm ∧ (statusWord s).extractLsb' 28 4 = 0 := by
  refine ⟨?_, ?_, ?_, ?_⟩ <;>
  · refine BitVec.eq_of_getLsbD_eq fun k hk => ?_
    simp only [statusWord, BitVec.getLsbD_extractLsb', BitVec.getLsbD_append]
    interval_cases k <;> simp

theorem flagsByte_fields (c : Context) :
    ((flagsByte c).setWidth 32).getLsbD 0 = c.enc ∧
      ((flagsByte c).setWidth 32).extractLsb' 1 1 = modeCode c.mode ∧
      ((flagsByte c).setWidth 32).extractLsb' 2 2 = phaseCode c.acqPhase ∧
      ((flagsByte c).setWidth 32).extractLsb' 4 28 = 0 := by
  unfold flagsByte
  cases c.enc <;> cases c.mode <;> cases c.acqPhase <;> decide

/-- Settles O45: each field stands at its place in the concatenation. -/
theorem statusWordLayout : Obligations.StatusWordLayout := by
  intro s
  obtain ⟨hbusy, hdone, herr, hanom, hbusyWr, hhostErr, hzero⟩ := statusWord_bits s
  obtain ⟨herrCode, hresult, hfsm, htop⟩ := statusWord_fields s
  obtain ⟨henc, hmode, hphase, hflagsTop⟩ := flagsByte_fields s.ctx
  have hvariant (v : Variant) : (variantByte (some v)).toNat = v.toNat :=
    BitVec.toNat_setWidth_of_le (by decide)
  exact ⟨hbusy, hdone, herr, hanom, hbusyWr, hhostErr, statusWord_enc s, hzero, herrCode, hresult, hfsm,
    htop, rfl, rfl, hvariant, rfl, rfl, henc, hmode, rfl, hphase, rfl, hflagsTop⟩

/-! ### Reset -/

theorem statusWord_reset : statusWord State.reset = 0 := by decide

theorem zeroBlock_get : ∀ i, zeroBlock.get i = 0 := by decide

theorem zeroChallenge_get : ∀ i, zeroChallenge.get i = 0 := by decide

/-- Settles O47: the reset state is a literal. -/
theorem resetValues : Obligations.ResetValues := by
  refine ⟨?br, ?cr, rfl, statusWord_reset, ?context, rfl, rfl, fun a => rfl⟩
  case br => decide
  case cr => decide
  case context =>
    intro b
    cases b with
    | chal i | dchal i => exact zeroChallenge_get i
    | key1 i | key2 i | keycheck i | etk i | titleKey i => exact zeroBlock_get i
    | variant | attempts | fsm | flags => rfl

/-- Settles O48: the step is `resetCore`, and nothing is stored in the memory it leaves. -/
theorem platformResetRestoresResetValues : Obligations.PlatformResetRestoresResetValues := by
  intro s rest hin
  exact ⟨_, step_input hin, rfl, rfl, rfl, rfl, rfl, statusWord_reset, rfl, rfl, rfl, fun a => rfl⟩

/-! ### Who writes the context -/

theorem hostWrite_ctx {s t : State} {addr : HostAddr} {n : Nat} {v : Word} (haddr : addr ≠ cmdAddr)
    (h : hostWrite addr n v s = .next t) : t.ctx = s.ctx := by
  unfold hostWrite at h
  split at h
  case isFalse => cases h; rfl
  case isTrue =>
    cases h
    exact hostStore_ctx s addr v

/-- Settles O53: a command that starts no session and is not CLRCTX is dropped or primitive. -/
theorem onlySessionsAndClrctxWriteTheContext : Obligations.OnlySessionsAndClrctxWriteTheContext := by
  refine ⟨fun i s t h hauth hacq hclr => ?command, fun s t a n rest hin h => ?read,
    fun s t a n v rest hin ha h => ?write⟩
  case command =>
    rcases exec_primitive h hauth hacq hclr with ⟨-, rfl⟩ | ⟨-, hprim⟩
    · rfl
    · exact hprim.ctx
  case read =>
    rw [step_input hin] at h
    cases h
    exact hostRead_ctx _ a n
  case write =>
    rw [step_input hin] at h
    exact hostWrite_ctx (s := { s with inputs := rest }) ha h

end Sys2Proof.Machine
end

section
/-! The unit functions: the search for a variant, the generator's registers, mix as a bijection, the two orientations of
`r0`, and their obligations (40_bitstream R124, R130; 41_blockcipher R151; 42_keyderivation R164, R169). -/

namespace Sys2Proof.Machine

/-! ### The search for a variant -/

/-- The search goes through the numbers 0..31. -/
theorem resolveVariant_eq (cfg : Config) (ch : Challenge) (k1 : Block) :
    resolveVariant cfg ch k1 =
      ((List.range 32).find? fun n => key1Transform cfg (BitVec.ofNat 5 n) ch == k1).map (BitVec.ofNat 5) :=
  List.find?_map

theorem resolveVariant_eq_some_iff {cfg : Config} {ch : Challenge} {k1 : Block} {v : Variant} :
    resolveVariant cfg ch k1 = some v ↔
      key1Transform cfg v ch = k1 ∧ ∀ u : Variant, u.toNat < v.toNat → key1Transform cfg u ch ≠ k1 := by
  simp only [resolveVariant_eq, Option.map_eq_some_iff, List.find?_range_eq_some, List.mem_range, beq_iff_eq,
    Bool.not_eq_true', beq_eq_false_iff_ne]
  constructor
  · rintro ⟨n, ⟨hmatch, hn, hleast⟩, rfl⟩
    refine ⟨hmatch, fun u hu => ?_⟩
    have hlt : u.toNat < n := by
      rw [BitVec.toNat_ofNat] at hu
      omega
    simpa using hleast u.toNat hlt
  · rintro ⟨hmatch, hleast⟩
    refine ⟨v.toNat, ⟨by simpa using hmatch, v.isLt, fun j hj => hleast _ ?_⟩, by simp⟩
    rw [BitVec.toNat_ofNat]
    exact (Nat.mod_le _ _).trans_lt hj

theorem resolveVariant_eq_none_iff {cfg : Config} {ch : Challenge} {k1 : Block} :
    resolveVariant cfg ch k1 = none ↔ ∀ v : Variant, key1Transform cfg v ch ≠ k1 := by
  simp only [resolveVariant_eq, Option.map_eq_none_iff, List.find?_range_eq_none, Bool.not_eq_true',
    beq_eq_false_iff_ne]
  constructor
  · intro h v
    simpa using h v.toNat v.isLt
  · exact fun h n _ => h _

/-- Settles O13: the search stops at the least matching number below 32, and each of them is one variant. -/
theorem resolveVariantPicksTheLowestMatch : Obligations.ResolveVariantPicksTheLowestMatch :=
  fun _ _ _ => ⟨fun _ => resolveVariant_eq_some_iff, resolveVariant_eq_none_iff⟩

/-! ### One step of the generator -/

/-- Shifting a register left by one and inserting a bit, in integers. -/
theorem toNat_shiftIn {w : Nat} (l : BitVec (w + 1)) (b : Bool) :
    ((l <<< 1) ||| (BitVec.ofBool b).setWidth (w + 1)).toNat = (2 * l.toNat + b.toNat) % 2 ^ (w + 1) := by
  have hdisjoint : (l <<< 1) &&& (BitVec.ofBool b).setWidth (w + 1) = 0#(w + 1) := by
    refine BitVec.eq_of_getLsbD_eq fun i hi => ?_
    cases i <;> simp
  rw [← BitVec.add_eq_or_of_and_eq_zero _ _ hdisjoint]
  simp [Nat.shiftLeft_eq, Nat.mul_comm]

/-- The output bit and the carry are the two bits of the sum (40_bitstream R124). -/
theorem combined_bits : ∀ f1 carry f0 : Bool,
    ((combined f1 carry f0).testBit 0).toNat = ((1 - f1.toNat) + carry.toNat + (1 - f0.toNat)) % 2 ∧
      ((combined f1 carry f0).testBit 1).toNat = ((1 - f1.toNat) + carry.toNat + (1 - f0.toNat)) / 2 := by
  decide

/-- Settles O57: both registers shift in their feedback bits, and `combined` is the sum. -/
theorem generatorStepFormula : Obligations.GeneratorStepFormula := by
  intro g
  obtain ⟨hbit, hcarry⟩ := combined_bits (feedback1 g.lfsr1) g.carry (feedback0 g.lfsr0)
  exact ⟨toNat_shiftIn g.lfsr0 (feedback0 g.lfsr0), toNat_shiftIn g.lfsr1 (feedback1 g.lfsr1), hbit, hcarry⟩

/-! ### Neither register becomes zero -/

/-- A nonzero register that shifts to zero held its top bit alone, and a 0 was shifted in. -/
theorem eq_twoPow_of_shiftIn_eq_zero {w : Nat} {l : BitVec (w + 1)} {b : Bool} (hl : l ≠ 0)
    (h : (l <<< 1) ||| (BitVec.ofBool b).setWidth (w + 1) = 0#(w + 1)) : l = BitVec.twoPow (w + 1) w ∧ b = false := by
  have hnat := toNat_shiftIn l b
  have hpos : l.toNat ≠ 0 := fun e => hl (BitVec.eq_of_toNat_eq e)
  have hlt := l.isLt
  have hbit := Bool.toNat_lt b
  have hb : b.toNat = 0 ↔ b = false := by cases b <;> decide
  have htop : (BitVec.twoPow (w + 1) w).toNat = 2 ^ w := by
    rw [BitVec.toNat_twoPow, Nat.mod_eq_of_lt (Nat.pow_lt_pow_succ Nat.one_lt_two)]
  rw [h, Nat.pow_succ] at hnat
  rw [Nat.pow_succ] at hlt
  rw [← BitVec.toNat_inj, htop, ← hb]
  rcases Nat.lt_or_ge (2 * l.toNat + b.toNat) (2 ^ w * 2) with hsmall | hge
  · rw [Nat.mod_eq_of_lt hsmall, BitVec.toNat_ofNat, Nat.zero_mod] at hnat
    omega
  · rw [Nat.mod_eq_sub_mod hge, Nat.mod_eq_of_lt (by omega), BitVec.toNat_ofNat, Nat.zero_mod] at hnat
    omega

/-- Only the top bit is lost in a step, and it is a tap of either register: with that bit alone the feedback is 1. -/
theorem stepBit_ne_zero {g : Generator} (h : g.lfsr0 ≠ 0 ∧ g.lfsr1 ≠ 0) :
    (stepBit g).2.lfsr0 ≠ 0 ∧ (stepBit g).2.lfsr1 ≠ 0 := by
  obtain ⟨h0, h1⟩ := h
  constructor
  · intro hzero
    obtain ⟨htop, hbit⟩ := eq_twoPow_of_shiftIn_eq_zero (b := feedback0 g.lfsr0) h0 hzero
    rw [htop] at hbit
    exact absurd hbit (by decide)
  · intro hzero
    obtain ⟨htop, hbit⟩ := eq_twoPow_of_shiftIn_eq_zero (b := feedback1 g.lfsr1) h1 hzero
    rw [htop] at hbit
    exact absurd hbit (by decide)

theorem seedGenerator_ne_zero (s : Block) : (seedGenerator s).lfsr0 ≠ 0 ∧ (seedGenerator s).lfsr1 ≠ 0 := by
  constructor
  · have hbit : (seedGenerator s).lfsr0.getLsbD 3 = true := by simp [seedGenerator]
    intro h
    simp [h] at hbit
  · have hbit : (seedGenerator s).lfsr1.getLsbD 8 = true := by simp [seedGenerator]
    intro h
    simp [h] at hbit

/-- Settles O58: the seeding sets a bit in each register, and a step keeps both nonzero. -/
theorem generatorRegistersNeverZero : Obligations.GeneratorRegistersNeverZero := by
  intro s k
  induction k with
  | zero => exact seedGenerator_ne_zero s
  | succ k ih => exact stepBit_ne_zero ih

/-! ### mix as a bijection -/

theorem eq_of_xor_between {c x y z : Byte} (h : c ^^^ x ^^^ z = c ^^^ y ^^^ z) : x = y :=
  (BitVec.xor_right_inj c).1 ((BitVec.xor_left_inj z).1 h)

/-- Pass 2 from index 0 up: each byte's final term is the byte below it, already known (42_keyderivation R168). -/
theorem foldPass2_injective {cfg : Config} (htab : Function.Injective cfg.tab1) (c : Block) :
    Function.Injective (foldPass2 cfg c) := by
  rintro ⟨k0, k1, k2, k3, k4⟩ ⟨l0, l1, l2, l3, l4⟩ h
  simp only [foldPass2, Block.mk.injEq] at h
  obtain ⟨h0, h1, h2, h3, h4⟩ := h
  obtain rfl := htab ((BitVec.xor_right_inj _).1 h0)
  obtain rfl := htab (eq_of_xor_between h1)
  obtain rfl := htab (eq_of_xor_between h2)
  obtain rfl := htab (eq_of_xor_between h3)
  obtain rfl := htab (eq_of_xor_between h4)
  rfl

/-- Pass 1 from index 0 up: byte 0's final term is the new byte 4, which the result holds (42_keyderivation R168). -/
theorem foldPass1_injective {cfg : Config} (htab : Function.Injective cfg.tab1) (c : Block) :
    Function.Injective (foldPass1 cfg c) := by
  rintro ⟨k0, k1, k2, k3, k4⟩ ⟨l0, l1, l2, l3, l4⟩ h
  simp only [foldPass1, Block.mk.injEq] at h
  obtain ⟨h0, h1, h2, h3, h4⟩ := h
  rw [h4] at h0
  obtain rfl := htab (eq_of_xor_between h0)
  obtain rfl := htab (eq_of_xor_between h1)
  obtain rfl := htab (eq_of_xor_between h2)
  obtain rfl := htab (eq_of_xor_between h3)
  obtain rfl := htab (eq_of_xor_between h4)
  rfl

theorem finite_block : Finite Block :=
  Finite.of_injective Block.get fun _ _ h => Block.ext_get (congrFun h)

/-- Settles O59: both passes are injective, and Blocks are finitely many. -/
theorem mixIsABijectionWhenTab1Is : Obligations.MixIsABijectionWhenTab1Is := by
  intro cfg s inv htab
  have := finite_block
  have hinjective := (foldPass2_injective htab.injective (combinedBytes cfg s inv)).comp
    (foldPass1_injective htab.injective (combinedBytes cfg s inv))
  exact hinjective.bijective_of_finite

/-! ### The two orientations of `r0` -/

/-- The output taps of the reversed register are those of the forward one, mirrored (42_keyderivation R163, R164). -/
theorem reversedOutput_reverse (r : Word) : reversedOutput r.reverse = rev8 (r0Output r) := by
  refine BitVec.eq_of_getLsbD_eq fun i hi => ?_
  simp only [reversedOutput, rev8, r0Output, BitVec.getLsbD_reverse, BitVec.getMsbD, BitVec.getLsbD_setWidth,
    BitVec.getLsbD_ushiftRight, BitVec.getLsbD_xor]
  interval_cases i <;> simp [Bool.xor_comm]

/-- Shifting a byte in at the bottom is, mirrored, shifting the mirrored byte in at the top. -/
theorem reverse_shiftIn (r : Word) (b : Byte) :
    ((r <<< 8) ||| b.setWidth 32).reverse = (r.reverse >>> 8) ||| ((rev8 b).setWidth 32 <<< 24) := by
  refine BitVec.eq_of_getLsbD_eq fun i hi => ?_
  simp only [rev8, BitVec.getLsbD_reverse, BitVec.getMsbD, BitVec.getLsbD_or, BitVec.getLsbD_setWidth,
    BitVec.getLsbD_ushiftRight, BitVec.getLsbD_shiftLeft]
  interval_cases i <;> simp

/-- The reversed register stays the mirror of the forward one (42_keyderivation R164). -/
theorem reversedAfter_reverse (cfg : Config) (p : LfsrPair) (k : Nat) :
    reversedAfter p.r0.reverse k = (pairAfter cfg p k).r0.reverse := by
  induction k with
  | zero => rfl
  | succ k ih =>
    rw [reversedAfter, ih, reversedOutput_reverse, ← reverse_shiftIn]
    rfl

/-- Settles O60: the registers are mirrors of each other after every step, and so are their output bytes. -/
theorem reversedRegisterGivesTheSameStream : Obligations.ReversedRegisterGivesTheSameStream := by
  intro cfg s k
  rw [reversedAfter_reverse cfg, reversedOutput_reverse]
  rfl

end Sys2Proof.Machine
end
